-- ==== Sys2Proof/Word.lean ====
section
/-! DEFINITION. The word types of the part: bytes, station addresses, sequence numbers, counters. -/

namespace Sys2Proof

/-- One byte, as a data symbol or a link character carries it (R17, R12). -/
abbrev Byte := BitVec 8

/-- A station address or a destination, 0 to 63 (R18, 13.2). -/
abbrev Addr := BitVec 6

/-- A 16-bit word: sequence numbers, samples, event counters. -/
abbrev Word := BitVec 16

end Sys2Proof
end

