-- ==== Sys2Proof/Syntax.lean ====
section
/-! DEFINITION. The commands of the part: one constructor of `Instr` for each row of spec/opcode_table.json, with the
operands that the event carries. -/

namespace Sys2Proof

/-- The two line ports (chapter 2). WEST receives RISE and sends FALL; EAST receives FALL and sends RISE. -/
inductive Port where
  | west | east
  deriving DecidableEq, Repr

/-- The two directions of travel (section 2 of the general description). -/
inductive Dir where
  | rise | fall
  deriving DecidableEq, Repr

/-- The four record links (chapter 1, 1.3). -/
inductive Link where
  | toll | sign | weather | service
  deriving DecidableEq, Repr

/-- The three road conditions (chapter 10). -/
inductive Condition where
  | ice | wind | fog
  deriving DecidableEq, Repr

/-- The five smoothed quantities of R162. -/
inductive Quantity where
  | ta | ts | h | w | v
  deriving DecidableEq, Repr

/-- What the serial memory's bus shows the Loader in one read attempt (R2). -/
structure BusAnswers where
  /-- The clock pulses after which CSDA is first seen high: 0 when it is high from the start, none when it is still low after
  the ninth. -/
  released : Option (Fin 10) := some 0
  /-- The memory acknowledges the bus address with the write direction. -/
  writeAck : Bool := true
  /-- It acknowledges the word address. -/
  wordAck : Bool := true
  /-- It acknowledges the bus address with the read direction. -/
  readAck : Bool := true
  /-- The bytes it gives, in order. -/
  bytes : List Byte
  deriving DecidableEq, Repr

/-- A character received on a record link: its eight bits, and whether its stop bit was low, a framing error (R12). -/
structure LinkChar where
  value : Byte
  framing : Bool := false
  deriving DecidableEq, Repr

/-- A line symbol (R17): one of the five control symbols, or a data symbol with its byte. -/
inductive Symbol where
  | idle | frameStart | frameEnd | spanStart | abort
  | data (b : Byte)
  deriving DecidableEq, Repr

/-- A symbol as a port receives it: none for one that decodes as no symbol, a line-code error (R17). -/
abbrev RxSymbol := Option Symbol

/-- What one channel of the phone highway carries in one signalling period: the command and argument octets and the
16 samples, oldest first (R104). -/
structure HwChannel where
  cmd : Byte := 0
  arg : Byte := 0
  samples : List Word := List.replicate 16 0
  deriving DecidableEq, Repr

/-- What the links and ports have received since the command before and that brings no row of its own, in order: the characters
that the record links have received, and the symbols that the ports have (log 7). -/
structure QuietInput where
  chars : List (Link × LinkChar) := []
  symbols : List (Port × RxSymbol) := []
  deriving DecidableEq, Repr

/-- The two kinds of frame that have a return list entry (R69). -/
inductive ReturnKind where
  | toll | sign
  deriving DecidableEq, Repr

/-- The commands: the rows of spec/opcode_table.json in the table's order. -/
inductive Instr where
  | fullReset
  | resetRelease
  /-- `answers` is what the bus showed in the attempt. -/
  | readAttemptDone (answers : BusAnswers)
  | readRetryPauseEnd
  | linePulse (input : QuietInput)
  /-- `low` is the level of ACK_N at this service pulse: true when it is low. -/
  | ackSample (low : Bool)
  | sampleWork
  | staleLimitReached (q : Quantity)
  | levelRise (c : Condition)
  | levelFall (c : Condition)
  | staleClear (c : Condition)
  /-- Here and in every row that ends a received message, `chars` are the characters that the link has received since the
  command before, of which the last ends the message (log 7). -/
  | linkMessageMalformed (l : Link) (chars : List LinkChar)
  | linkGapTimeout (l : Link)
  | linkMessageUnknown (l : Link) (chars : List LinkChar)
  | linkOverrun (l : Link) (chars : List LinkChar)
  /-- `high` is the level the equipment's ready input has taken: true when it rises. -/
  | linkReadyInHigh (l : Link) (high : Bool)
  | linkMessageSent (l : Link)
  | record (chars : List LinkChar)
  | sample (chars : List LinkChar)
  | shown (chars : List LinkChar)
  | signFault (chars : List LinkChar)
  | command (chars : List LinkChar)
  | request (chars : List LinkChar)
  | read
  | clearAlerts
  | clearCounters
  | serviceRestart
  | replyPartResume
  | remoteRequestPlaced
  | remoteWaitExpiry
  /-- Here and in the four rows that follow, the operands after the port are, in order, the symbols that the port has received
  since the command before, of which the last ends the item or is the line-code error (log 7). Here: the symbols up to the end
  of the header, and the data symbols of the payload and of its CRC; FRAME_END follows. -/
  | rxFrameComplete (p : Port) (header : List RxSymbol) (payload crc : List Byte)
  /-- `cause` is the symbol at which the frame is discarded. -/
  | rxFrameDiscarded (p : Port) (before : List RxSymbol) (cause : RxSymbol)
  /-- The symbols up to the content's last, and the data symbol of the check. -/
  | spanWordReceived (p : Port) (content : List RxSymbol) (check : Byte)
  | spanWordInvalid (p : Port) (symbols : List RxSymbol)
  /-- The symbol that decodes as none: one received in HUNTING, where those that come before it have no effect (R19). -/
  | lineCodeError (p : Port)
  /-- The symbols that the port has received since the command before and that bring no row of their own: those up to the end
  of a header, and those after it. -/
  | signalLoss (p : Port) (header body : List RxSymbol)
  | signalRise (p : Port)
  | spanWordSent (p : Port)
  | frameSent (p : Port)
  | arbiterChoice (d : Dir)
  | sendPass
  | lossTimerExpiry (p : Port)
  | holdOffExpiry (p : Port)
  | recoveryTimerExpiry (p : Port)
  | foldedLineTimeEnd (p : Port)
  | returnDeadlineExpiry (kind : ReturnKind) (seq : Word) (tag : Byte)
  | starvationTimerExpiry
  | holdbackRepeatExpiry
  | holdbackEntryExpiry (originator : Addr)
  | holdbackPeriodExpiry
  | presenceTimerExpiry
  /-- `frames` is the number of highway frames since the last marked one; `channels` what the channels carried in
  the period that ends, channel 0 first. -/
  | highwayMarkedFrame (frames : Nat) (channels : List HwChannel)
  | highwayLossTimerExpiry
  | hookCheckPassed (line : Fin 4)
  | hangUp (line : Fin 4)
  | lineAnswer (line : Fin 4)
  | setupRetryExpiry (line : Fin 4)
  | lineSupervisionExpiry (line : Fin 4)
  | lineClearingExpiry (line : Fin 4)
  | lineRingTimeout (line : Fin 4)
  | consoleOpen (ch : Fin 16)
  | consoleClose (ch : Fin 16)
  | consoleAnswer (ch : Fin 16)
  | consoleRelease (ch : Fin 16)
  /-- The party called back is the argument octet taken with the command. -/
  | consoleCallback (ch : Fin 16)
  | offerRefreshExpiry (ch : Fin 16)
  | waitingRefreshExpiry (station : Addr) (line : Fin 4)
  | channelSupervisionExpiry (ch : Fin 16)
  | callbackRingExpiry (ch : Fin 16)
  | channelClearingExpiry (ch : Fin 16)
  | backoffTimerExpiry (seq : Word)
  | parkTimerExpiry
  | reportTimerExpiry
  | showRetryExpiry (sign : Fin 4)
  | centreLifetimeExpiry (sign : Fin 4)
  | testDurationExpiry (sign : Fin 4)
  | incidentTimerExpiry
  | heldCommandRetry
  deriving DecidableEq, Repr

end Sys2Proof
end

