-- ==== Sys2Proof/WellFormed.lean ====
section
/-! DEFINITION. Which commands are well formed: their operands are such as the event can carry. -/

namespace Sys2Proof

/-- A message ends with a character: the rows that end one carry at least that. -/
def charsFit (chars : List LinkChar) : Bool := !chars.isEmpty

/-- A channel's period holds 16 samples (R104). -/
def HwChannel.fits (c : HwChannel) : Bool := c.samples.length == 16

/-- A span word ends with a symbol: SPAN_WORD_INVALID carries at least that. -/
def symbolsFit (symbols : List RxSymbol) : Bool := !symbols.isEmpty

/-- A frame's payload is at most 232 bytes and its CRC at most 4 (R18, R21). -/
def bodyFits (payload crc : List Byte) : Bool := payload.length ≤ 232 && crc.length ≤ 4

/-- The Loader reads 120 bytes where every address is acknowledged (R2). -/
def BusAnswers.fits (a : BusAnswers) : Bool :=
  a.released.isNone || !a.writeAck || !a.wordAck || !a.readAck || a.bytes.length == 120

/-- The checks on a command's operands. A command without operands that can go wrong is always well formed. -/
def Instr.wellFormed : Instr → Bool
  | .readAttemptDone answers => answers.fits
  | .linkMessageMalformed _ chars | .linkMessageUnknown _ chars | .linkOverrun _ chars | .record chars | .sample chars
  | .shown chars | .signFault chars | .command chars | .request chars => charsFit chars
  | .rxFrameComplete _ _ payload crc => bodyFits payload crc
  | .spanWordInvalid _ symbols => symbolsFit symbols
  | .highwayMarkedFrame frames channels =>
      decide (0 < frames) && channels.length == 16 && channels.all HwChannel.fits
  | .waitingRefreshExpiry station _ => station != 0
  | .holdbackEntryExpiry originator => originator != 0
  | .fullReset | .resetRelease | .readRetryPauseEnd | .linePulse _ | .ackSample _ | .sampleWork | .staleLimitReached _
  | .levelRise _ | .levelFall _ | .staleClear _ | .linkGapTimeout _ | .linkReadyInHigh _ _ | .linkMessageSent _
  | .read | .clearAlerts | .clearCounters | .serviceRestart | .replyPartResume | .remoteRequestPlaced
  | .remoteWaitExpiry | .rxFrameDiscarded _ _ _ | .spanWordReceived _ _ _ | .lineCodeError _ | .signalLoss _ _ _
  | .signalRise _ | .spanWordSent _ | .frameSent _ | .arbiterChoice _ | .sendPass | .lossTimerExpiry _
  | .holdOffExpiry _ | .recoveryTimerExpiry _ | .foldedLineTimeEnd _ | .returnDeadlineExpiry _ _ _
  | .starvationTimerExpiry | .holdbackRepeatExpiry | .holdbackPeriodExpiry | .presenceTimerExpiry
  | .highwayLossTimerExpiry | .hookCheckPassed _ | .hangUp _ | .lineAnswer _ | .setupRetryExpiry _
  | .lineSupervisionExpiry _ | .lineClearingExpiry _ | .lineRingTimeout _ | .consoleOpen _ | .consoleClose _
  | .consoleAnswer _ | .consoleRelease _ | .consoleCallback _ | .offerRefreshExpiry _
  | .channelSupervisionExpiry _ | .callbackRingExpiry _ | .channelClearingExpiry _ | .backoffTimerExpiry _
  | .parkTimerExpiry | .reportTimerExpiry | .showRetryExpiry _ | .centreLifetimeExpiry _ | .testDurationExpiry _
  | .incidentTimerExpiry | .heldCommandRetry => true

end Sys2Proof
end

