-- ==== Sys2Proof/Config.lean ====
section
/-! DEFINITION. What the part fixes for every station: the counts and capacities the manual states as numbers, and the one
thing it leaves open, the byte layout of a READ section's contents. Values that the configuration image sets are in
`Machine.Image`. -/

namespace Sys2Proof.Config

/-- R2: failed attempts after which the read has failed. -/
def readAttempts : Nat := 3
/-- R2, 13.5: bytes of the configuration image. -/
def imageBytes : Nat := 120
/-- R13: the longest body of a link message. R14: line pulses of the gap timer. -/
def longestBody : Nat := 240
def gapPulses : Nat := 8
/-- R76: cells of the Frame Store. -/
def cells : Nat := 256
/-- R69: entries of the return list, and those of them that TOLL may take. -/
def returnPlaces : Nat := 16
def tollReturnPlaces : Nat := 4
/-- R88: entries of the holdback list. -/
def holdbackPlaces : Nat := 4
/-- R88: holdback periods for which an entry stands. -/
def holdbackLife : Nat := 3
/-- R104: frames between marked frames, and the count of the highway loss timer. -/
def periodFrames : Nat := 16
def highwayLoss : Nat := 2
/-- R108, R114, R116: samples that pass the hook check, hang up, answer a ring. -/
def hookCheck : Nat := 5
def hangUp : Nat := 25
def ringAnswer : Nat := 5
/-- R109, R115, R133, R135: service pulses of the setup retry, the clearing timers and the call-back ring timer. -/
def setupRetry : Nat := 8
def clearing : Nat := 8
def callbackRing : Nat := 8
/-- R115, R133: the clearing repeat that ends the clearing. -/
def clearingRepeats : Nat := 4
/-- R112, R137: the supervision limit. -/
def supervision : Nat := 64
/-- R116: the ring timer of a line. -/
def ringTimeout : Nat := 3660
/-- R137: the refresh interval of offered and waiting calls. -/
def refresh : Nat := 32
/-- R128: places of the waiting list. -/
def waitingPlaces : Nat := 32
/-- R145: entries of the journal; R146: entries in flight at once. -/
def journalPlaces : Nat := 96
def journalInFlight : Nat := 4
/-- R144, R188: places of the notice store and of the outcome store. -/
def noticePlaces : Nat := 16
def outcomePlaces : Nat := 16
/-- R155: accepts after which a source entry is SETTLED. -/
def settleAccepts : Nat := 32
/-- R193: content bytes of one reply part. -/
def partBytes : Nat := 220
/-- R183: the priority of a TEST entry. -/
def testPriority : Nat := 8

/-- The bytes of a READ section (numbered 0 to 8 as in 13.4) from the values it shows. R193 and the chapters say which
values a section shows; no chapter gives their byte layout, so the layout is a free value: nothing is known of this
function (log 9, DESIGN CHOICE). -/
opaque sectionBytes : Nat → List Int → List Byte

end Sys2Proof.Config
end

