-- ==== Sys2Proof/Machine/State.lean ====
section
/-! DEFINITION. Everything the manual gives the part to hold, as plain data, and its value at reset. INVENTORY.md lists
each item with its rule. -/

namespace Sys2Proof.Machine

/-- A total map held as a list of (key, value) pairs with keys rising: a key at its default value is not listed. The
operations are `Table.get` and `Table.put` (Machine/Ops.lean). -/
abbrev Table (κ ν : Type) := List (κ × ν)

/-- A timer of R10. `left` is the number of pulses still to count, 0 when stopped; `reload` is the count of a repeating
timer and 0 for any other; `due` is set by the pulse at which the timer expires and cleared when the expiry is taken. -/
structure Timer where
  left : Nat := 0
  reload : Nat := 0
  due : Bool := false
  deriving DecidableEq, Repr

/-! ## Start-up and the configuration image (chapters 1 and 13) -/

/-- The start states of section 1.1. -/
inductive StartState where
  | held | reading | running | reReading | transparent
  deriving DecidableEq, Repr

inductive PhoneRole where
  | none | roadside | switchboard
  deriving DecidableEq, Repr

inductive TollRole where
  | none | reader | collector
  deriving DecidableEq, Repr

inductive WeatherRole where
  | none | station | home
  deriving DecidableEq, Repr

inductive SignRole where
  | none | signs | centre
  deriving DecidableEq, Repr

/-- The roles of byte 1 and the number of signs (13.5). -/
structure Roles where
  phone : PhoneRole := .none
  toll : TollRole := .none
  weather : WeatherRole := .none
  sign : SignRole := .none
  signCount : Nat := 0
  deriving DecidableEq, Repr

/-- The seven users of the Frame Store (R76), in the order of R77. -/
inductive User where
  | transitRise | transitFall | urgentOut | journal | ordinaryOut | weatherOut | receive
  deriving DecidableEq, Repr

/-- One value for each Frame Store user. -/
structure PerUser (α : Type) where
  transitRise : α
  transitFall : α
  urgentOut : α
  journal : α
  ordinaryOut : α
  weatherOut : α
  receive : α
  deriving DecidableEq, Repr

/-- One value for each record link. -/
structure PerLink (α : Type) where
  toll : α
  sign : α
  weather : α
  service : α
  deriving DecidableEq, Repr

/-- One value for each condition. -/
structure PerCondition (α : Type) where
  ice : α
  wind : α
  fog : α
  deriving DecidableEq, Repr

/-- One value for each quantity of R162. -/
structure PerQuantity (α : Type) where
  ta : α
  ts : α
  h : α
  w : α
  v : α
  deriving DecidableEq, Repr

/-- A guarantee and a maximum (R77). -/
structure Share where
  guarantee : Nat
  maximum : Nat
  deriving DecidableEq, Repr

/-- The shares that R77 gives as defaults. -/
def Share.defaults : PerUser Share where
  transitRise := ⟨24, 48⟩
  transitFall := ⟨24, 48⟩
  urgentOut := ⟨12, 24⟩
  journal := ⟨32, 96⟩
  ordinaryOut := ⟨8, 32⟩
  weatherOut := ⟨4, 16⟩
  receive := ⟨16, 64⟩

/-- What the image sets for one condition (R168, R179). -/
structure ConditionConfig where
  r1 : Int
  r2 : Int
  r3 : Int
  hysteresis : Nat
  pUp : Nat
  pDown : Nat
  patternWarn : Byte := 0
  patternSevere : Byte := 0
  deriving DecidableEq, Repr

/-- The configuration image in force (13.5), after the clamping of R4. The field defaults are those of 13.5; with address
0 and no roles they are what a station in TRANSPARENT uses (R6). Counts marked "0 as 1" are held as they stand. -/
structure Image where
  address : Addr := 0
  roles : Roles := {}
  phonePrimary : Addr := 0
  phoneAlternate : Addr := 0
  tollPrimary : Addr := 0
  tollAlternate : Addr := 0
  weatherPrimary : Addr := 0
  weatherAlternate : Addr := 0
  maintenance : Addr := 0
  zoneStations : List Addr := [0, 0, 0, 0]
  groupCode : BitVec 6 := 0
  groupMask : BitVec 6 := 0
  lineBit : Nat := 9
  serviceBit : Nat := 13
  sampleBit : Nat := 19
  lossLimit : Nat := 4
  joinHoldOff : Nat := 500
  recovery : Nat := 2000
  warning : Nat := 96
  warningClear : Nat := 64
  isolation : Nat := 240
  shares : PerUser Share := Share.defaults
  returnTimeout : Nat := 8
  starveLimit : Nat := 8
  holdbackPeriod : Nat := 4
  holdbackQuota : Nat := 4
  presenceInterval : Nat := 32
  peerLossLimit : Nat := 4
  rates : PerLink Nat := ⟨4, 4, 4, 4⟩
  retryLimit : Nat := 8
  parkInterval : Nat := 1024
  statusTimeout : Nat := 64
  smoothing : PerQuantity Nat := ⟨4, 4, 3, 6, 2⟩
  stepTa : Nat := 50
  stepTs : Nat := 50
  stepH : Nat := 40
  staleLimit : Nat := 10
  wetBonus : Nat := 20
  staleClear : Nat := 600
  reportInterval : Nat := 600
  conditions : PerCondition ConditionConfig :=
    ⟨⟨0, 20, 50, 10, 3, 30, 0, 0⟩, ⟨150, 200, 250, 20, 2, 60, 0, 0⟩, ⟨9700, 9850, 9950, 50, 3, 30, 0, 0⟩⟩
  conditionsPriority : Nat := 3
  incidentPriority : Nat := 6
  incidentPattern : Byte := 0
  incidentSet : BitVec 4 := 0xF
  incidentDelay : Nat := 30
  clearDelay : Nat := 120
  showTimeout : Nat := 64
  faultRepeat : Nat := 16
  enable : BitVec 9 := 0x1FF
  deriving DecidableEq, Repr

/-- The Configuration Loader's own progress in a start (R2). -/
structure Loader where
  fails : Nat := 0
  paused : Bool := false
  /-- Count of clamped fields of the image in force (R4, R77). -/
  clamped : Nat := 0
  deriving DecidableEq, Repr

/-- The levels of the part's inputs as last reported by a command. -/
structure Pins where
  signalWest : Bool := true
  signalEast : Bool := true
  ready : PerLink Bool := ⟨false, false, false, false⟩
  ackLow : Bool := false
  deriving DecidableEq, Repr

/-! ## Frames (chapters 2 and 4) -/

/-- The nine kinds of 13.2, in code order. -/
inductive Kind where
  | voice | call | holdback | toll | sign | condition | presence | status | weather
  deriving DecidableEq, Repr

/-- A corridor frame: its header fields, its payload and its payload CRC (R18, 2.2). The length is the payload's. -/
structure Frame where
  kind : Kind
  source : Addr
  dest : Addr
  group : Bool := false
  fold : Nat := 0
  hops : Nat := 0
  taken : Bool := false
  refused : Bool := false
  damaged : Bool := false
  seq : Word := 0
  tag : Byte := 0
  payload : List Byte := []
  crc : BitVec 32 := 0
  deriving DecidableEq, Repr

/-- A frame inside the part with the cell that holds it and the cell's trailer (R76): the user, the direction of arrival
and the note of a corrected header. A local TOLL frame is held in its journal entry's cell (R64). -/
structure Held where
  frame : Frame
  cell : Nat
  user : User
  arrival : Dir := .rise
  corrected : Bool := false
  deriving DecidableEq, Repr

/-! ## Line ports and the Fold Controller (chapters 2 and 3) -/

inductive ErrorState where
  | active | warning | isolated
  deriving DecidableEq, Repr

inductive LinkState where
  | down | settling | joining | up | isolated
  deriving DecidableEq, Repr

inductive FoldCause where
  | start | loss | farEndFault | neighbourNotReady | isolation
  deriving DecidableEq, Repr

/-- The span states of 13.3. -/
inductive SpanState where
  | notReady | ready | joined
  deriving DecidableEq, Repr

/-- The transmit states of R27, with what is being sent. -/
inductive TxState where
  | idle
  | frame (h : Held)
  | span (content : BitVec 16)
  deriving DecidableEq, Repr

/-- The receive states of R19, with what has come of the item in progress: the header bytes, the decoded header with its
length, the note of a corrected header and the data symbols since, or the data symbols of a span word. -/
inductive RxState where
  | hunting
  | header (bytes : List Byte)
  | body (frame : Frame) (length : Nat) (corrected : Bool) (bytes : List Byte)
  | span (bytes : List Byte)
  deriving DecidableEq, Repr

/-- One line port with its link record (R19, R27, R31, R36, R50). -/
structure PortRec where
  rx : RxState := .hunting
  tx : TxState := .idle
  /-- The transmitter has abandoned a frame: ABORT is the first symbol it sends, before what `tx` holds (R30; log 52). -/
  aborts : Bool := false
  owesSpan : Bool := false
  score : Nat := 0
  errorState : ErrorState := .active
  neighbour : Addr := 0
  link : LinkState := .down
  hearing : Bool := false
  loss : Timer := {}
  holdOff : Timer := {}
  recovery : Timer := {}
  cause : FoldCause := .start
  spanSent : SpanState := .notReady
  faultSent : Bool := true
  /-- Symbol times that the arbiter of this folded side is waiting out (R50). -/
  lineWait : Option Nat := none
  deriving DecidableEq, Repr

/-! ## Carriage (chapter 4) -/

/-- The outcomes of R71 and R72. -/
inductive FrameOutcome where
  | damaged | partly | taken | refused | untaken | lost
  deriving DecidableEq, Repr

/-- The phases of a return list entry (4.5). HELD carries the outcome it was resolved with (R73). -/
inductive Phase where
  | pending
  | awaiting
  | held (o : FrameOutcome)
  deriving DecidableEq, Repr

/-- A return list entry; its key is (kind, sequence, tag). The kind gives the owner (R69): the Toll Journal for TOLL, the
sign centre for SIGN. -/
structure ReturnEntry where
  kind : ReturnKind
  seq : Word
  tag : Byte
  phase : Phase := .pending
  deadline : Timer := {}
  deriving DecidableEq, Repr

/-- The transit queues of R63 and the local queues of R64, oldest first. -/
structure Queues where
  riseUrgent : List Held := []
  riseOrdinary : List Held := []
  fallUrgent : List Held := []
  fallOrdinary : List Held := []
  localUrgent : List Held := []
  localToll : List Held := []
  localClass2 : List Held := []
  localWeather : List Held := []
  deriving DecidableEq, Repr

/-- The seven sequence counters of R74. -/
structure Seqs where
  call : Word := 0
  holdback : Word := 0
  sign : Word := 0
  condition : Word := 0
  presence : Word := 0
  status : Word := 0
  weather : Word := 0
  deriving DecidableEq, Repr

/-! ## Frame Store and Holdback Unit (chapter 5) -/

/-- What the store keeps for one user (R76, R77, R85). -/
structure UserRec where
  guarantee : Nat
  maximum : Nat
  count : Nat := 0
  peak : Nat := 0
  deriving DecidableEq, Repr

/-- Where the shares in force came from (R77, R84). -/
inductive ShareOrigin where
  | image | defaults | kept
  deriving DecidableEq, Repr

structure Store where
  free : List Nat := List.range Config.cells
  users : PerUser UserRec
  origin : ShareOrigin := .defaults
  deriving DecidableEq, Repr

/-- An entry of the holdback list (R88). `armed` counts the armings of the list, so that of two entries the one whose
timer was armed earlier has the smaller number. -/
structure HoldbackEntry where
  originator : Addr
  quota : Nat
  expiry : Timer
  armed : Nat
  deriving DecidableEq, Repr

structure Holdback where
  starved : Bool := false
  starvation : Timer := {}
  repeating : Timer := {}
  entries : List HoldbackEntry := []
  armings : Nat := 0
  inserted : Nat := 0
  period : Timer := {}
  deriving DecidableEq, Repr

/-! ## Peer Table (chapter 6) -/

inductive PeerState where
  | absent | present | lost
  deriving DecidableEq, Repr

inductive LevelFlag where
  | valid | held | unknown
  deriving DecidableEq, Repr

/-- A level with its flag. -/
structure Level where
  level : Nat := 0
  flag : LevelFlag := .unknown
  deriving DecidableEq, Repr

/-- A peer's port summary (R92). -/
structure PortSummary where
  link : LinkState
  errorState : ErrorState
  folded : Bool
  neighbour : Addr
  deriving DecidableEq, Repr

/-- The presence part of an entry (R92). -/
structure PresencePart where
  roles : Roles
  west : PortSummary
  east : PortSummary
  offHook : Nat
  occupancy : Nat
  alerts : Nat
  deriving DecidableEq, Repr

structure Peer where
  state : PeerState := .absent
  age : Nat := 0
  lastHops : Option Nat := none
  presence : Option PresencePart := none
  levels : Option (PerCondition Level) := none
  deriving DecidableEq, Repr

structure Peers where
  /-- Keyed by station address; a station not listed is ABSENT. -/
  entries : Table Addr Peer := []
  timer : Timer := {}
  /-- The entries when RE_READING began (R95). -/
  noted : Table Addr Peer := []
  deriving DecidableEq, Repr

/-! ## Phone Unit and Switchboard Unit (chapters 7 and 8) -/

inductive LineState where
  | idle | hookCheck | requesting | queued | alerting | talking | clearing | ended | ringing
  deriving DecidableEq, Repr

/-- The tones of R106 that a line record chooses between in REQUESTING (R109). -/
inductive Tone where
  | calling | unavailable
  deriving DecidableEq, Repr

/-- A line record (R107); the voice sequence and the playout slot are in `Voice`. -/
structure Line where
  state : LineState := .idle
  partner : Option Addr := none
  offRun : Nat := 0
  onRun : Nat := 0
  reestablishing : Bool := false
  position : Option Nat := none
  channel : Option Nat := none
  retry : Timer := {}
  supervision : Timer := {}
  clearing : Timer := {}
  repeats : Nat := 0
  ring : Timer := {}
  tone : Tone := .calling
  deriving DecidableEq, Repr

inductive SlotState where
  | empty | filling | playing
  deriving DecidableEq, Repr

/-- A playout slot (R122): the frames held, each with its distance from the expected sequence. -/
structure Slot where
  state : SlotState := .empty
  /-- 0 while EMPTY (DESIGN CHOICE, log 44). -/
  expected : Word := 0
  frames : Table Nat (List Word) := []
  last : Option (List Word) := none
  misses : Nat := 0
  deriving DecidableEq, Repr

/-- A line or a console channel: each has a voice sequence and a playout slot of its own (R120, R122). -/
inductive Place where
  | line (i : Fin 4)
  | channel (c : Fin 16)
  deriving DecidableEq, Repr

/-- The voice sequence and the playout slot of a line or console channel (R120, R122). -/
structure Voice where
  seq : Word := 0
  slot : Slot := {}
  deriving DecidableEq, Repr

structure Phone where
  inStep : Bool := false
  loss : Timer := {}
  lines : Table (Fin 4) Line := []
  voice : Table Place Voice := []
  /-- What the part sends on HDO in the period in progress (R104). -/
  out : Table (Fin 16) HwChannel := []
  deriving DecidableEq, Repr

/-- A party (8): station and line. -/
structure Party where
  station : Addr
  line : Fin 4
  deriving DecidableEq, Repr

inductive ChannelState where
  | closed | free | offered | talking | callingBack | clearing
  deriving DecidableEq, Repr

/-- The console commands of R126. -/
inductive ConsoleCommand where
  | openChannel | closeChannel | answer | release | callback
  deriving DecidableEq, Repr

/-- A channel record (R127) with the channel's previous octet and the command taken from it and not yet carried out
(R126, log 14). -/
structure Channel where
  state : ChannelState := .closed
  party : Option Party := none
  arrival : Option Word := none
  cleared : Bool := false
  /-- Set at the beginning of a period in which the channel talks to its party, and by a console command taken at the end of
  the period before that makes it talk, so that VOICE frames are built for it from the signalling period after the one in
  which it began (R127). -/
  voicing : Bool := false
  refresh : Timer := {}
  supervision : Timer := {}
  ring : Timer := {}
  clearing : Timer := {}
  repeats : Nat := 0
  previous : Byte := 0
  takenCmd : Option ConsoleCommand := none
  takenArg : Byte := 0
  deriving DecidableEq, Repr

/-- A waiting-list entry (R128). -/
structure Waiting where
  party : Party
  arrival : Word
  refresh : Timer := {}
  deriving DecidableEq, Repr

structure Switchboard where
  channels : Table (Fin 16) Channel := []
  waiting : List Waiting := []
  arrival : Word := 0
  deriving DecidableEq, Repr

/-! ## Toll (chapter 9) -/

inductive JournalState where
  | waiting | inFlight | parked
  deriving DecidableEq, Repr

/-- A journal entry (R145); `record` is what its JOURNAL cell holds. -/
structure JournalEntry where
  seq : Word
  readerTag : BitVec 32
  record : List Byte
  state : JournalState := .waiting
  attempts : Nat := 0
  parkTurn : Bool := false
  backoff : Timer := {}
  cell : Nat
  deriving DecidableEq, Repr

structure Journal where
  entries : List JournalEntry := []
  seq : Word := 0
  park : Timer := {}
  /-- The sequence of the entry whose park turn is due (R147). -/
  due : Option Word := none
  deriving DecidableEq, Repr

inductive SourceState where
  | empty | fresh | settled
  deriving DecidableEq, Repr

/-- A source entry (R154): bit d − 1 of `window` is the mark at distance d. -/
structure Source where
  state : SourceState := .empty
  highest : BitVec 32 := 0
  window : BitVec 32 := 0
  accepts : Nat := 0
  deriving DecidableEq, Repr

structure Collector where
  sources : Table Addr Source := []
  deriving DecidableEq, Repr

/-! ## Weather (chapter 10) -/

/-- A quantity record (R162). -/
structure QuantityRec where
  live : Bool := false
  accepted : Option Int := none
  smoothed : Int := 0
  missing : Nat := 0
  suspect : Nat := 0
  deriving DecidableEq, Repr

/-- A condition record (R168). -/
structure ConditionRec where
  level : Nat := 0
  flag : LevelFlag := .unknown
  up : Nat := 0
  down : Nat := 0
  held : Nat := 0
  severity : Option Int := none
  deriving DecidableEq, Repr

/-- The interval statistics of R171. -/
structure Stats where
  samples : Nat := 0
  taMin : Option Int := none
  taMax : Option Int := none
  tsMin : Option Int := none
  tsMax : Option Int := none
  gustMax : Option Int := none
  visMin : Option Int := none
  missing : Nat := 0
  suspect : Nat := 0
  clamped : Nat := 0
  superseded : Nat := 0
  deriving DecidableEq, Repr

structure Weather where
  pendingSample : Option (List Byte) := none
  quantities : PerQuantity QuantityRec := ⟨{}, {}, {}, {}, {}⟩
  wet : Bool := false
  gusts : List Int := []
  conditions : PerCondition ConditionRec := ⟨{}, {}, {}⟩
  stats : Stats := {}
  report : Timer := {}
  deriving DecidableEq, Repr

/-! ## Signs (chapter 11) -/

/-- A CENTRE entry (R178). `identity` numbers the taken SETs (log 29). -/
structure CentreEntry where
  identity : Nat
  id : Word
  priority : Nat
  text : List Byte
  lifetime : Timer := {}
  deriving DecidableEq, Repr

/-- A TEST entry (R178). -/
structure TestEntry where
  pattern : Byte
  duration : Timer
  deriving DecidableEq, Repr

/-- A selection (R178, R183). -/
inductive Selection where
  | blank
  | centre (identity : Nat)
  | conditions (pattern : Byte)
  | incident (pattern : Byte)
  | test (pattern : Byte)
  deriving DecidableEq, Repr

inductive Handover where
  | idle | sending | awaiting
  deriving DecidableEq, Repr

/-- The outstanding SHOW (R178): its number, the selection it carries and its body in the sign's show place. -/
structure Show where
  number : Byte
  selection : Selection
  body : List Byte
  deriving DecidableEq, Repr

/-- A sign record (R178). The retry timer counts sample pulses while `retryOnSample` is set and service pulses
otherwise. -/
structure SignRec where
  centre : Option CentreEntry := none
  incident : Bool := false
  test : Option TestEntry := none
  selection : Selection := .blank
  handover : Handover := .idle
  fault : Bool := false
  showCounter : Byte := 0
  outstanding : Option Show := none
  pendingFlag : Bool := false
  timeouts : Nat := 0
  retry : Timer := {}
  retryOnSample : Bool := false
  deriving DecidableEq, Repr

inductive IncidentState where
  | quiet | rising | active | falling
  deriving DecidableEq, Repr

structure Signs where
  records : Table (Fin 4) SignRec := []
  zone : PerCondition Nat := ⟨0, 0, 0⟩
  conditions : Option Byte := none
  incident : IncidentState := .quiet
  incidentTimer : Timer := {}
  nextIdentity : Nat := 0
  /-- The command buffer of R187: the link tag and the body. -/
  buffer : Option (Byte × List Byte) := none
  deriving DecidableEq, Repr

/-! ## Maintenance and alerts (chapter 12) -/

/-- The ten alert events, in the order of section 12.2. -/
inductive Alert where
  | portWarning | portIsolated | foldChange | addressClash | cellShortage | journalParked
  | switchboardUnreachable | signFault | weatherStale | configFault
  deriving DecidableEq, Repr

structure AlertRec where
  latched : Bool := false
  time : BitVec 24 := 0
  deriving DecidableEq, Repr

inductive Requester where
  | serviceLink
  | station (a : Addr)
  deriving DecidableEq, Repr

/-- The results of an ANSWER (13.4). -/
inductive Result where
  | taken | bad | timeout | keptImage | busy
  deriving DecidableEq, Repr

/-- A command of section 12.1. `sections` are the sections still to be sent, in order. -/
inductive JobCommand where
  | read (sections : List Nat)
  | clearAlerts
  | clearCounters
  | serviceRestart
  deriving DecidableEq, Repr

/-- How far the job in the slot has come (R191 to R194). -/
inductive JobStage where
  /-- In the slot, not yet carried out. -/
  | taken
  /-- A READ under way: the number of the next part of its first section. -/
  | reading (part : Nat)
  /-- Carried out; its ANSWER waits for a cell. -/
  | answering (r : Result)
  /-- A SERVICE_RESTART waiting for the end of the restart. -/
  | restarting
  /-- A remote request waiting for a cell. -/
  | remote (target : Addr) (body : List Byte)
  deriving DecidableEq, Repr

structure Job where
  command : JobCommand
  requester : Requester
  tag : Byte
  stage : JobStage
  deriving DecidableEq, Repr

structure RemoteWait where
  target : Addr
  tag : Byte
  timer : Timer
  deriving DecidableEq, Repr

structure Maint where
  slot : Option Job := none
  wait : Option RemoteWait := none
  ackRun : Nat := 0
  deriving DecidableEq, Repr

/-! ## Record links (chapter 1) -/

/-- Where a queued message is held, and so who is told when it has been sent (R16): a Frame Store cell, a place of the
notice store (R144), a place of the outcome store (R188), a sign's show place (R184), or nobody any more. -/
inductive Holder where
  | cell (u : User) (n : Nat)
  | notice
  | outcome
  | sign (i : Fin 4)
  | nobody
  deriving DecidableEq, Repr

structure Message where
  kind : Byte
  tag : Byte := 0
  body : List Byte
  holder : Holder
  deriving DecidableEq, Repr

/-- What becomes of a begun message that turns out good: it is handed over, or it is an overrun because the ready output was
low at its start marker (R15), or it is discarded without a count because a service restart began meanwhile (R7). -/
inductive Fate where
  | handed | overrun | dropped
  deriving DecidableEq, Repr

/-- A link's receiver (R13): hunting, or receiving a begun message, of which `bytes` have come after the start marker. -/
inductive LinkRx where
  | hunting
  | receiving (fate : Fate) (bytes : List Byte)
  deriving DecidableEq, Repr

structure LinkRec where
  rx : LinkRx := .hunting
  /-- The gap timer, in line pulses, armed at the end of each character of a message (R14). -/
  gap : Timer := {}
  queue : List Message := []
  sending : Bool := false
  deriving DecidableEq, Repr

/-! ## Event counters -/

/-- The counters that every port keeps (R34, R53). -/
inductive PortCounter where
  | framesIn | framesOut | headerCorrected | headerDiscarded | headerInvalid | payloadDamaged | damagedPassing
  | delimiterErrors | lineCodeErrors | abortedIn | cut | spanWordsIn | spanErrors | signalLoss | notAccepted
  | linkDowns | joins | selfHeard
  deriving DecidableEq, Repr

/-- The counters that every record link keeps (R16). -/
inductive LinkCounter where
  | malformed | unknown | overrun
  deriving DecidableEq, Repr

/-- The counters kept once for the station: R53, R75, R85, R91, R102, R125, R141, R153, R158, R176, R190, R199, R2. -/
inductive StationCounter where
  | loaderReadFailures
  | turnedBack | orphans
  | transitDrop | addressClash | stripped | copied | refusedHere | notCopiedDamaged | inserted | returnLost | lateReturn
  | returnAbandoned
  | urgentNotSent | ordinarySkipped | weatherShed | sharesKept
  | starved | holdbackSent | holdbackSkipped | holdbackCopied | holdbackReplaced
  | presenceSent | presenceRefreshed | peersLost | peerBadPayload
  | callsRequested | callsConnected | supervisionLapses | callBad | callStray | voiceRefused | voiceLate | voiceDuplicate
  | voiceResync | voiceConcealed | hookBad | highwaySlip | highwayLoss
  | setupsTaken | setupsRepeated | setupRefused | callsOffered | callsAnswered | callbacks | callbacksBusy | channelLapses
  | switchboardCallBad | switchboardStray | consoleIgnored | consoleBad
  | recordsTaken | recordsRejected | recordsFull | tagsRepeated | attempts | confirmed | partialSeen | backoffs | resends
  | parkings | parkReleases | noticesDropped
  | tollBad | collectNoCell | tollAccepted | tollUnverified | tollDuplicate
  | samplesTaken | samplesSuperseded | samplesAbsent | sampleBad | fieldsClamped | fieldsMissing | fieldsSuspect
  | staleEntries | levelChanges | conditionsSent | conditionsRefreshed | reportsSent | reportNoHome | weatherBad
  | conditionBad | homeNoCell | reportsOut | levelsOut
  | signBad | testRefused | clearNoMatch | showsSent | showResends | showTimeouts | selectionsSuperseded | shownIgnored
  | signFaultsReported | signMsgBad | commandsTaken | commandsBad | commandsHeld | outcomesDropped
  | statusBad | statusBusy | statusRefused | statusStray | statusTimeouts | statusNotSent | replyParts | acks
  deriving DecidableEq, Repr

/-- Every event counter of the part. `refusals` is a user's REFUSALS (R85), `occurrence` an event's occurrence counter
(R197). -/
inductive Counter where
  | port (p : Port) (c : PortCounter)
  | link (l : Link) (c : LinkCounter)
  | refusals (u : User)
  | occurrence (a : Alert)
  | station (c : StationCounter)
  deriving DecidableEq, Repr

/-! ## The whole part -/

/-- Everything the part holds, and the commands that wait to be taken, first in first out. -/
structure State where
  start : StartState := .held
  loader : Loader := {}
  image : Image := {}
  timebase : BitVec 24 := 0
  pins : Pins := {}
  west : PortRec := {}
  east : PortRec := {}
  queues : Queues := {}
  returns : List ReturnEntry := []
  seqs : Seqs := {}
  store : Store
  holdback : Holdback := {}
  peers : Peers := {}
  phone : Phone := {}
  switchboard : Switchboard := {}
  journal : Journal := {}
  collector : Collector := {}
  weather : Weather := {}
  signs : Signs := {}
  maint : Maint := {}
  alerts : Table Alert AlertRec := []
  links : PerLink LinkRec := ⟨{}, {}, {}, {}⟩
  counters : Table Counter Word := []
  pending : List Instr := []
  deriving DecidableEq, Repr

/-- The Frame Store at full reset with the given shares: all cells free, every count 0 (R76). -/
def Store.fresh (shares : PerUser Share) (origin : ShareOrigin) : Store where
  users :=
    { transitRise := ⟨shares.transitRise.guarantee, shares.transitRise.maximum, 0, 0⟩
      transitFall := ⟨shares.transitFall.guarantee, shares.transitFall.maximum, 0, 0⟩
      urgentOut := ⟨shares.urgentOut.guarantee, shares.urgentOut.maximum, 0, 0⟩
      journal := ⟨shares.journal.guarantee, shares.journal.maximum, 0, 0⟩
      ordinaryOut := ⟨shares.ordinaryOut.guarantee, shares.ordinaryOut.maximum, 0, 0⟩
      weatherOut := ⟨shares.weatherOut.guarantee, shares.weatherOut.maximum, 0, 0⟩
      receive := ⟨shares.receive.guarantee, shares.receive.maximum, 0, 0⟩ }
  origin := origin

/-- The part with a full reset in force (R1): start state HELD, the Timebase at 0, every block at its full-reset state,
no command waiting. -/
def State.reset : State where
  store := Store.fresh Share.defaults .defaults

/-- No command stops the part: the manual names no event after which the part does not go on. Nobody raises a fault. -/
inductive Fault where
  deriving DecidableEq, Repr

/-- Why a command has no meaning. -/
inductive Refusal where
  /-- Raised by an arm of `exec` whose command is not modelled yet; safe. No arm raises it. -/
  | notModelled (mnemonic : String)
  deriving DecidableEq, Repr

end Sys2Proof.Machine
end

