-- ==== Sys2Proof/Machine/Ops.lean ====
section
/-! DEFINITION. The operations every block shares: tables, timers, updates of one part of the state, event counters,
Frame Store cells, queues, placing of frames, the return list's registration and the record links' output queues. -/

namespace Sys2Proof.Machine

/-! ## Tables -/

/-- The value of `k`, which is the default `d` where `k` is not listed. -/
def Table.get {κ ν : Type} [DecidableEq κ] (d : ν) (k : κ) : Table κ ν → ν
  | [] => d
  | (k', v) :: t => if k = k' then v else Table.get d k t

/-- The table without `k`. -/
def Table.erase {κ ν : Type} [DecidableEq κ] (k : κ) (t : Table κ ν) : Table κ ν :=
  t.filter (fun e => decide (e.1 ≠ k))

/-- Insertion before the first key of larger order. -/
def Table.insert {κ ν : Type} (ord : κ → Nat) (k : κ) (v : ν) : Table κ ν → Table κ ν
  | [] => [(k, v)]
  | (k', v') :: t => if ord k < ord k' then (k, v) :: (k', v') :: t else (k', v') :: Table.insert ord k v t

/-- The table with `k` at `v`; a key put at the default is not listed. -/
def Table.put {κ ν : Type} [DecidableEq κ] [DecidableEq ν] (ord : κ → Nat) (d : ν) (k : κ) (v : ν) (t : Table κ ν) :
    Table κ ν :=
  if v = d then Table.erase k t else Table.insert ord k v (Table.erase k t)

/-- Keys strictly rising and no key listed at its default: the canonical form of a table. -/
def Table.wf {κ ν : Type} [DecidableEq ν] (ord : κ → Nat) (d : ν) : Table κ ν → Bool
  | [] => true
  | [(_, v)] => v != d
  | (k, v) :: (k', v') :: t => decide (ord k < ord k') && v != d && Table.wf ord d ((k', v') :: t)

/-- The table with every listed value changed by `f`. -/
def Table.mapValues {κ ν : Type} (f : ν → ν) (t : Table κ ν) : Table κ ν := t.map (fun e => (e.1, f e.2))

/-! ## Receiving one thing after another -/

/-- What is received brings an event with its last item, and only with it: that event and the state then; none for anything
else. `take` is what one item does. -/
def untilEvent {α ε σ : Type} (take : α → σ → Option ε × σ) : List α → σ → Option (ε × σ)
  | [], _ => none
  | x :: rest, s =>
    match take x s, rest with
    | (some e, s), [] => some (e, s)
    | (none, s), _ :: _ => untilEvent take rest s
    | _, _ => none

/-- What is received brings no event: the state then; none where one of the items brings one. -/
def withoutEvent {α ε σ : Type} (take : α → σ → Option ε × σ) : List α → σ → Option σ
  | [], s => some s
  | x :: rest, s =>
    match take x s with
    | (none, s) => withoutEvent take rest s
    | (some _, _) => none

/-! ## Timers (R10) -/

/-- Arming with count `c`, 0 being taken as 1. -/
def Timer.arm (c : Nat) : Timer := { left := max c 1 }

/-- Arming of a repeating timer. -/
def Timer.armRepeating (c : Nat) : Timer := { left := max c 1, reload := max c 1 }

/-- A stopped timer. -/
def Timer.stopped : Timer := {}

/-- One pulse of the timer's source: the pulse that ends the count makes the expiry due, and a repeating timer starts
again with the same count at that instant. -/
def Timer.tick (t : Timer) : Timer :=
  if t.left = 0 then t
  else if t.left = 1 then { t with left := t.reload, due := true }
  else { t with left := t.left - 1 }

/-- Running, or expired with the expiry not yet taken. -/
def Timer.running (t : Timer) : Bool := t.left != 0 || t.due

/-- Whether an expiry of the timer can be taken (R10: at the c-th pulse after the arming, and not after a stop or a new
arming; log 2). -/
def Timer.expired (t : Timer) : Bool := t.due

/-- The timer once its expiry has been taken. -/
def Timer.take (t : Timer) : Timer := { t with due := false }

/-! ## One value for each of a fixed set of names -/

def PerUser.get {α : Type} (t : PerUser α) : User → α
  | .transitRise => t.transitRise
  | .transitFall => t.transitFall
  | .urgentOut => t.urgentOut
  | .journal => t.journal
  | .ordinaryOut => t.ordinaryOut
  | .weatherOut => t.weatherOut
  | .receive => t.receive

def PerUser.set {α : Type} (t : PerUser α) (u : User) (a : α) : PerUser α :=
  match u with
  | .transitRise => { t with transitRise := a }
  | .transitFall => { t with transitFall := a }
  | .urgentOut => { t with urgentOut := a }
  | .journal => { t with journal := a }
  | .ordinaryOut => { t with ordinaryOut := a }
  | .weatherOut => { t with weatherOut := a }
  | .receive => { t with receive := a }

/-- The seven values in the order of R77. -/
def PerUser.toList {α : Type} (t : PerUser α) : List α :=
  [t.transitRise, t.transitFall, t.urgentOut, t.journal, t.ordinaryOut, t.weatherOut, t.receive]

def PerUser.map {α β : Type} (f : α → β) (t : PerUser α) : PerUser β :=
  ⟨f t.transitRise, f t.transitFall, f t.urgentOut, f t.journal, f t.ordinaryOut, f t.weatherOut, f t.receive⟩

def PerLink.get {α : Type} (t : PerLink α) : Link → α
  | .toll => t.toll
  | .sign => t.sign
  | .weather => t.weather
  | .service => t.service

def PerLink.set {α : Type} (t : PerLink α) (l : Link) (a : α) : PerLink α :=
  match l with
  | .toll => { t with toll := a }
  | .sign => { t with sign := a }
  | .weather => { t with weather := a }
  | .service => { t with service := a }

def PerCondition.get {α : Type} (t : PerCondition α) : Condition → α
  | .ice => t.ice
  | .wind => t.wind
  | .fog => t.fog

def PerCondition.set {α : Type} (t : PerCondition α) (c : Condition) (a : α) : PerCondition α :=
  match c with
  | .ice => { t with ice := a }
  | .wind => { t with wind := a }
  | .fog => { t with fog := a }

def PerCondition.map {α β : Type} (f : α → β) (t : PerCondition α) : PerCondition β := ⟨f t.ice, f t.wind, f t.fog⟩

/-- The three values in the order ICE, WIND, FOG. -/
def PerCondition.toList {α : Type} (t : PerCondition α) : List α := [t.ice, t.wind, t.fog]

def PerQuantity.get {α : Type} (t : PerQuantity α) : Quantity → α
  | .ta => t.ta
  | .ts => t.ts
  | .h => t.h
  | .w => t.w
  | .v => t.v

def PerQuantity.set {α : Type} (t : PerQuantity α) (q : Quantity) (a : α) : PerQuantity α :=
  match q with
  | .ta => { t with ta := a }
  | .ts => { t with ts := a }
  | .h => { t with h := a }
  | .w => { t with w := a }
  | .v => { t with v := a }

/-- The conditions in the order of the payloads (R97). -/
def allConditions : List Condition := [.ice, .wind, .fog]

/-- The quantities in the order of R162. -/
def allQuantities : List Quantity := [.ta, .ts, .h, .w, .v]

/-- The four lines, the four signs. -/
def allFour : List (Fin 4) := [0, 1, 2, 3]

/-- The sixteen console channels, channel 0 first. -/
def allSixteen : List (Fin 16) := [0, 1, 2, 3, 4, 5, 6, 7, 8, 9, 10, 11, 12, 13, 14, 15]

/-- The station addresses, lowest first. -/
def allStations : List Addr := (List.range 63).map (fun n => BitVec.ofNat 6 (n + 1))

/-- Every place with a voice sequence and a playout slot. -/
def allPlaces : List Place := allFour.map .line ++ allSixteen.map .channel

/-- The order of the places in their table. -/
def Place.code : Place → Nat
  | .line i => i.val
  | .channel c => 4 + c.val

/-! ## Updates of one part of the state -/

def State.modStart (f : StartState → StartState) (s : State) : State := { s with start := f s.start }
def State.modLoader (f : Loader → Loader) (s : State) : State := { s with loader := f s.loader }
def State.modImage (f : Image → Image) (s : State) : State := { s with image := f s.image }
def State.modTimebase (f : BitVec 24 → BitVec 24) (s : State) : State := { s with timebase := f s.timebase }
def State.modPins (f : Pins → Pins) (s : State) : State := { s with pins := f s.pins }
def State.modReturns (f : List ReturnEntry → List ReturnEntry) (s : State) : State := { s with returns := f s.returns }
def State.modSeqs (f : Seqs → Seqs) (s : State) : State := { s with seqs := f s.seqs }
def State.modStore (f : Store → Store) (s : State) : State := { s with store := f s.store }
def State.modHoldback (f : Holdback → Holdback) (s : State) : State := { s with holdback := f s.holdback }
def State.modPeers (f : Peers → Peers) (s : State) : State := { s with peers := f s.peers }
def State.modPhone (f : Phone → Phone) (s : State) : State := { s with phone := f s.phone }
def State.modSwitchboard (f : Switchboard → Switchboard) (s : State) : State := { s with switchboard := f s.switchboard }
def State.modJournal (f : Journal → Journal) (s : State) : State := { s with journal := f s.journal }
def State.modCollector (f : Collector → Collector) (s : State) : State := { s with collector := f s.collector }
def State.modWeather (f : Weather → Weather) (s : State) : State := { s with weather := f s.weather }
def State.modSigns (f : Signs → Signs) (s : State) : State := { s with signs := f s.signs }
def State.modMaint (f : Maint → Maint) (s : State) : State := { s with maint := f s.maint }
def State.modAlerts (f : Table Alert AlertRec → Table Alert AlertRec) (s : State) : State :=
  { s with alerts := f s.alerts }
def State.modCounters (f : Table Counter Word → Table Counter Word) (s : State) : State :=
  { s with counters := f s.counters }

/-- The record of one port. -/
def State.port (s : State) : Port → PortRec
  | .west => s.west
  | .east => s.east

def State.modPort (p : Port) (f : PortRec → PortRec) (s : State) : State :=
  match p with
  | .west => { s with west := f s.west }
  | .east => { s with east := f s.east }

/-- The record of one link. -/
def State.link (s : State) (l : Link) : LinkRec := s.links.get l

def State.modLink (l : Link) (f : LinkRec → LinkRec) (s : State) : State :=
  { s with links := s.links.set l (f (s.links.get l)) }

/-! ## Event counters -/

/-- A 16-bit counter raised by one, stopping at 65535 (R16, R34 and the like). -/
def satInc (w : Word) : Word := if w = 65535 then w else w + 1

/-- The order of the counters in their table. -/
def Counter.code : Counter → Nat
  | .port p c => p.ctorIdx * 32 + c.ctorIdx
  | .link l c => 64 + l.ctorIdx * 4 + c.ctorIdx
  | .refusals u => 80 + u.ctorIdx
  | .occurrence a => 88 + a.ctorIdx
  | .station c => 98 + c.ctorIdx

/-- The value of a counter. -/
def State.counter (s : State) (c : Counter) : Word := s.counters.get 0 c

/-- Count one event. -/
def State.count (c : Counter) (s : State) : State :=
  s.modCounters (fun t => t.put Counter.code 0 c (satInc (t.get 0 c)))

/-- Count one event in a counter kept once for the station. -/
def State.tally (c : StationCounter) (s : State) : State := s.count (.station c)

/-- Count the same event `n` times. -/
def State.tallies (c : StationCounter) : Nat → State → State
  | 0, s => s
  | n + 1, s => State.tallies c n (s.tally c)

/-! ## Sides and directions -/

/-- The side by which frames of a direction leave (chapter 3). -/
def Dir.side : Dir → Port
  | .rise => .east
  | .fall => .west

/-- The direction of a frame that arrives on a port (R24). -/
def Port.arrival : Port → Dir
  | .west => .rise
  | .east => .fall

/-- The direction whose arbiter serves a port's transmitter (R65). -/
def Port.departure : Port → Dir
  | .east => .rise
  | .west => .fall

def Dir.flip : Dir → Dir
  | .rise => .fall
  | .fall => .rise

/-- The transit user of a direction (R76). -/
def Dir.user : Dir → User
  | .rise => .transitRise
  | .fall => .transitFall

/-- A side is folded exactly while its port's link state is not UP (R46). -/
def PortRec.folded (r : PortRec) : Bool := r.link != .up

def State.folded (s : State) (p : Port) : Bool := (s.port p).folded

/-- The blocks have started and no full reset is in force (R5, R6). -/
def State.awake (s : State) : Bool := s.start == .running || s.start == .reReading || s.start == .transparent

/-- The service side works: start state RUNNING (R7). -/
def State.inService (s : State) : Bool := s.start == .running

/-! ## Frame Store (R76 to R79) -/

/-- A user's unused guarantee (5.2). -/
def UserRec.unused (u : UserRec) : Nat := u.guarantee - u.count

/-- The sum of the unused guarantees. -/
def Store.reserved (st : Store) : Nat := (st.users.toList.map UserRec.unused).sum

/-- The shared free count (5.2). -/
def Store.sharedFree (st : Store) : Nat := st.free.length - st.reserved

/-- Whether a request from the user would succeed (R78). -/
def Store.able (u : User) (st : Store) : Bool :=
  let r := st.users.get u
  r.count < r.guarantee || (r.count < r.maximum && 0 < st.sharedFree)

/-- One more cell held by a user; the peak follows (R78, R85). -/
def UserRec.gain (r : UserRec) : UserRec := { r with count := r.count + 1, peak := max r.peak (r.count + 1) }

/-- One cell fewer. -/
def UserRec.lose (r : UserRec) : UserRec := { r with count := r.count - 1 }

/-- A request for one cell: the cell at the head of the free list, or nothing (R76, R78). -/
def Store.request (u : User) (st : Store) : Option (Nat × Store) :=
  match st.free with
  | [] => none
  | n :: rest =>
    if st.able u then some (n, { st with free := rest, users := st.users.set u (st.users.get u).gain }) else none

/-- The cell `n` of user `u` joins the tail of the free list (R79). -/
def Store.release (u : User) (n : Nat) (st : Store) : Store :=
  { st with free := st.free ++ [n], users := st.users.set u (st.users.get u).lose }

/-- The release of `old` and the request of `new` made together: the cell passes without joining the free list, or is
freed and the request fails (R48, R79). The manual does not say whether the cell that passes counts as free when the
request is decided; here it does, as it would if the release came first (DESIGN CHOICE, log 11). -/
def Store.transfer (old new : User) (n : Nat) (st : Store) : Option Store :=
  let released := st.release old n
  if released.able new then
    some { released with free := st.free, users := released.users.set new (released.users.get new).gain }
  else none

/-- A request with the count of a refusal (R78). -/
def State.requestCell (u : User) (s : State) : Option Nat × State :=
  match s.store.request u with
  | some (n, st) => (some n, s.modStore (fun _ => st))
  | none => (none, s.count (.refusals u))

def State.freeCell (u : User) (n : Nat) (s : State) : State := s.modStore (Store.release u n)

/-- The cell of a departing or discarded frame is freed, except a local TOLL frame's JOURNAL cell (R68, R79). -/
def State.releaseHeld (h : Held) (s : State) : State :=
  if h.user = .journal then s else s.freeCell h.user h.cell

/-! ## Queues and the conditions of starvation (R63, R64, R86, R87) -/

/-- Class 0 kinds (2.2). -/
def Kind.urgent : Kind → Bool
  | .voice | .call | .holdback => true
  | _ => false

/-- The three local ordinary queues together hold a frame (R86). -/
def Queues.localOrdinary (q : Queues) : Bool :=
  !(q.localToll.isEmpty && q.localClass2.isEmpty && q.localWeather.isEmpty)

/-- Both conditions of starvation hold (R86). -/
def Queues.starving (q : Queues) : Bool := q.localOrdinary && !q.riseOrdinary.isEmpty

/-- What the Holdback Unit does on the Carriage Unit's notices when the queues go from `before` to `after`: the
starvation timer runs exactly while both conditions hold and the flag is clear, and the flag clears when the local
ordinary queues become empty (R86, R87). -/
def Holdback.notice (limit : Nat) (before after : Queues) (h : Holdback) : Holdback :=
  if h.starved then
    if before.localOrdinary && !after.localOrdinary then
      { h with starved := false, repeating := Timer.stopped, starvation := Timer.stopped }
    else h
  else if after.starving && !before.starving then { h with starvation := Timer.arm limit }
  else if before.starving && !after.starving then { h with starvation := Timer.stopped }
  else h

/-- A change of the queues, with the notices it gives. -/
def State.modQueues (f : Queues → Queues) (s : State) : State :=
  { s with
    queues := f s.queues
    holdback := s.holdback.notice s.image.starveLimit s.queues (f s.queues) }

/-- A frame joins the transit queue of its direction and class, at the tail (R62). -/
def Queues.joinTransit (d : Dir) (h : Held) (q : Queues) : Queues :=
  match d, h.frame.kind.urgent with
  | .rise, true => { q with riseUrgent := q.riseUrgent ++ [h] }
  | .rise, false => { q with riseOrdinary := q.riseOrdinary ++ [h] }
  | .fall, true => { q with fallUrgent := q.fallUrgent ++ [h] }
  | .fall, false => { q with fallOrdinary := q.fallOrdinary ++ [h] }

/-- A frame joins the local queue of its kind, at the tail (R64). -/
def Queues.joinLocal (h : Held) (q : Queues) : Queues :=
  match h.frame.kind with
  | .voice | .call | .holdback => { q with localUrgent := q.localUrgent ++ [h] }
  | .toll => { q with localToll := q.localToll ++ [h] }
  | .sign | .condition | .presence | .status => { q with localClass2 := q.localClass2 ++ [h] }
  | .weather => { q with localWeather := q.localWeather ++ [h] }

/-- The transit queues of a direction, urgent first, oldest first (R47). -/
def Queues.transit (d : Dir) (q : Queues) : List Held :=
  match d with
  | .rise => q.riseUrgent ++ q.riseOrdinary
  | .fall => q.fallUrgent ++ q.fallOrdinary

/-- The queues with the transit queues of a direction emptied (R47). -/
def Queues.clearTransit (d : Dir) (q : Queues) : Queues :=
  match d with
  | .rise => { q with riseUrgent := [], riseOrdinary := [] }
  | .fall => { q with fallUrgent := [], fallOrdinary := [] }

/-- The cells of the given frames are freed in their order: frames that one step gives up free their cells oldest first (DESIGN
CHOICE, log 64: R79 gives no order). -/
def State.releaseAll : List Held → State → State
  | [], s => s
  | h :: t, s => State.releaseAll t (s.releaseHeld h)

/-! ## Sequence counters (R74) -/

def Seqs.get (q : Seqs) : Kind → Word
  | .call => q.call
  | .holdback => q.holdback
  | .sign => q.sign
  | .condition => q.condition
  | .presence => q.presence
  | .status => q.status
  | .weather => q.weather
  | .voice | .toll => 0

/-- The counter of a kind raised by one, 65535 returning to 0. VOICE and TOLL have none. -/
def Seqs.next (k : Kind) (q : Seqs) : Seqs :=
  match k with
  | .call => { q with call := q.call + 1 }
  | .holdback => { q with holdback := q.holdback + 1 }
  | .sign => { q with sign := q.sign + 1 }
  | .condition => { q with condition := q.condition + 1 }
  | .presence => { q with presence := q.presence + 1 }
  | .status => { q with status := q.status + 1 }
  | .weather => { q with weather := q.weather + 1 }
  | .voice | .toll => q

/-! ## The return list (R69) -/

def ReturnEntry.isKey (k : ReturnKind) (seq : Word) (tag : Byte) (e : ReturnEntry) : Bool :=
  e.kind == k && e.seq == seq && e.tag == tag

/-- Whether the registration of an entry succeeds (R69). -/
def canRegister (k : ReturnKind) (seq : Word) (tag : Byte) (l : List ReturnEntry) : Bool :=
  decide (l.length < Config.returnPlaces) &&
  (k != .toll || decide ((l.filter (fun e => e.kind == .toll)).length < Config.tollReturnPlaces)) &&
  !l.any (ReturnEntry.isKey k seq tag)

def State.register (k : ReturnKind) (seq : Word) (tag : Byte) (s : State) : State :=
  s.modReturns (fun l => l ++ [{ kind := k, seq := seq, tag := tag }])

/-! ## Record links (R11, R16) -/

/-- A link is active in RUNNING at a station whose role uses it (R11). -/
def State.linkActive (s : State) (l : Link) : Bool :=
  s.inService && match l with
    | .toll => s.image.roles.toll != .none
    | .sign => s.image.roles.sign != .none
    | .weather => s.image.roles.weather != .none
    | .service => true

/-- The transmitter starts the oldest queued message when none is being sent, the queue holds one, the start state is
RUNNING, the link is active and the ready input is high (R11, R16). -/
def State.linkStart (l : Link) (s : State) : State :=
  let r := s.link l
  if !r.sending && !r.queue.isEmpty && s.linkActive l && s.pins.ready.get l then
    s.modLink l (fun r => { r with sending := true })
  else s

/-- A message joins the tail of a link's output queue. -/
def State.queueMessage (l : Link) (m : Message) (s : State) : State :=
  (s.modLink l (fun r => { r with queue := r.queue ++ [m] })).linkStart l

/-- The messages of a queue not yet begun: all, but for the head while it is being sent. -/
def LinkRec.unbegun (r : LinkRec) : List Message := if r.sending then r.queue.drop 1 else r.queue

/-- The queue without the messages not yet begun that `p` picks. -/
def LinkRec.withdraw (p : Message → Bool) (r : LinkRec) : LinkRec :=
  { r with
    queue := (if r.sending then r.queue.take 1 else []) ++ r.unbegun.filter (fun m => !p m) }

/-- The messages not yet begun that `p` picks leave the queue; cells they hold are freed, oldest message first (R79; DESIGN
CHOICE, log 64). -/
def State.withdrawMessages (l : Link) (p : Message → Bool) (s : State) : State :=
  let gone := (s.link l).unbegun.filter p
  gone.foldl (fun s m => match m.holder with
    | .cell u n => s.freeCell u n
    | _ => s) (s.modLink l (LinkRec.withdraw p))

/-- The message being sent, if `p` picks it, is held by nobody from now on: it is sent to its end and no job is told. -/
def LinkRec.disown (p : Message → Bool) (r : LinkRec) : LinkRec :=
  { r with
    queue := match r.sending, r.queue with
      | true, m :: t => (if p m then { m with holder := .nobody } else m) :: t
      | _, q => q }

end Sys2Proof.Machine
end

