-- ==== Sys2Proof/Machine/Operands.lean ====
section
/-! DEFINITION. The operand forms of chapter 13: check codes, the frame header, the span word, payloads, link message
bodies and the configuration image, read from and written as bytes. -/

namespace Sys2Proof.Machine

/-! ## Bytes -/

/-- Byte `i`, 0 where there is none. -/
def byteAt (l : List Byte) (i : Nat) : Byte := l.getD i 0

/-- Two bytes, high byte first (R200). -/
def wordAt (l : List Byte) (i : Nat) : Word := byteAt l i ++ byteAt l (i + 1)

/-- The same, as an unsigned number. -/
def natAt (l : List Byte) (i : Nat) : Nat := (wordAt l i).toNat

/-- The same, as a signed number in two's complement (R200). -/
def intAt (l : List Byte) (i : Nat) : Int := (wordAt l i).toInt

/-- A 16-bit number as two bytes, high byte first (R200). -/
def wordBytes (w : Word) : List Byte := [w.extractLsb' 8 8, w.extractLsb' 0 8]

def natBytes (n : Nat) : List Byte := wordBytes (BitVec.ofNat 16 n)

def intBytes (n : Int) : List Byte := wordBytes (BitVec.ofInt 16 n)

/-- The low 6 bits of a byte as an address. -/
def addrOf (b : Byte) : Addr := b.extractLsb' 0 6

/-- An address in a byte. -/
def addrByte (a : Addr) : Byte := a.setWidth 8

/-! ## Check codes -/

/-- One bit, most significant first, of a CRC with the given generator. -/
def crcBit {w : Nat} (poly : BitVec w) (crc : BitVec w) (bit : Bool) : BitVec w :=
  let shifted := crc <<< 1
  if crc.msb != bit then shifted ^^^ poly else shifted

/-- One byte, most significant bit first. -/
def crcByte {w : Nat} (poly : BitVec w) (crc : BitVec w) (b : Byte) : BitVec w :=
  [7, 6, 5, 4, 3, 2, 1, 0].foldl (fun c i => crcBit poly c (b.getLsbD i)) crc

/-- The payload CRC of R23. -/
def crc32 (payload : List Byte) : BitVec 32 := ~~~ payload.foldl (crcByte 0x04C11DB7) 0xFFFFFFFF

/-- The link message CRC of R13, over the kind, tag, length and body bytes. -/
def crc16 (bytes : List Byte) : Word := bytes.foldl (crcByte 0x1021) 0xFFFF

/-- The span word check of R25, over the two content bytes. -/
def crc8 (bytes : List Byte) : Byte := bytes.foldl (crcByte 0x07) 0

/-! ## The header check code (R201)

The 72 header bits are numbered as they are sent: bit 71 is bit 7 of header byte 0 and bit 0 is bit 0 of byte 8. So the
field bit d_i is bit i + 8, the check bit c_i is bit i and the overall bit p is bit 7. -/

/-- The header bit that stands at a code position from 1 to 71. -/
def codeBit (n : Nat) : Nat :=
  if n = 2 ^ n.log2 then n.log2 else n - 2 - n.log2 + 8

/-- The parity of the code positions whose number has bit `i` set. -/
def positionParity (header : BitVec 72) (i : Nat) : Bool :=
  (List.range 72).foldl (fun p n => if n.testBit i then xor p (header.getLsbD (codeBit n)) else p) false

/-- The 7-bit number whose bit `i` is the parity check of c_i failing. -/
def syndrome (header : BitVec 72) : Nat :=
  (List.range 7).foldl (fun acc i => if positionParity header i then acc + 2 ^ i else acc) 0

/-- The parity of all 72 bits; true when it is odd. -/
def overallParity (header : BitVec 72) : Bool :=
  (List.range 72).foldl (fun p n => xor p (header.getLsbD n)) false

/-- The three outcomes of R20. -/
inductive HeaderCheck where
  | clean (fields : BitVec 64)
  | corrected (fields : BitVec 64)
  | uncorrectable
  deriving DecidableEq, Repr

/-- The decoding of R201. -/
def checkHeader (header : BitVec 72) : HeaderCheck :=
  let s := syndrome header
  let odd := overallParity header
  if s = 0 then
    if odd then .corrected (header.extractLsb' 8 64) else .clean (header.extractLsb' 8 64)
  else if odd && decide (s ≤ 71) then
    .corrected ((header ^^^ (1 <<< codeBit s)).extractLsb' 8 64)
  else .uncorrectable

/-- The 72 header bits for the 64 field bits: each c_i and p make their parity even (R201). -/
def codeHeader (fields : BitVec 64) : BitVec 72 :=
  let bare : BitVec 72 := fields ++ (0 : Byte)
  let checked := (List.range 7).foldl
    (fun h i => if positionParity bare i then h ||| (1 <<< i : BitVec 72) else h) bare
  if overallParity checked then checked ||| (1 <<< 7 : BitVec 72) else checked

/-! ## The frame header (13.2) -/

/-- Kind codes of 13.2. -/
def Kind.code : Kind → Nat
  | .voice => 1
  | .call => 2
  | .holdback => 3
  | .toll => 4
  | .sign => 5
  | .condition => 6
  | .presence => 7
  | .status => 8
  | .weather => 9

def Kind.ofCode : Nat → Option Kind
  | 1 => some .voice
  | 2 => some .call
  | 3 => some .holdback
  | 4 => some .toll
  | 5 => some .sign
  | 6 => some .condition
  | 7 => some .presence
  | 8 => some .status
  | 9 => some .weather
  | _ => none

/-- The header fields with the length, when they pass the field check of R21. The spare bits are not examined. -/
def fieldsFrame (f : BitVec 64) : Option (Frame × Nat) :=
  let source := f.extractLsb' 54 6
  let fold := (f.extractLsb' 45 2).toNat
  let length := (f.extractLsb' 0 8).toNat
  match Kind.ofCode (f.extractLsb' 60 4).toNat with
  | none => none
  | some kind =>
    if source ≠ 0 ∧ fold ≤ 2 ∧ length ≤ 232 then
      some ({ kind := kind
              source := source
              dest := f.extractLsb' 48 6
              group := f.getLsbD 47
              fold := fold
              hops := (f.extractLsb' 32 8).toNat
              taken := f.getLsbD 44
              refused := f.getLsbD 43
              damaged := f.getLsbD 42
              seq := f.extractLsb' 16 16
              tag := f.extractLsb' 8 8 }, length)
    else none

/-- The 64 field bits that a port sends for a frame, the spare bits as zero (R29). -/
def frameFields (f : Frame) : BitVec 64 :=
  (BitVec.ofNat 4 f.kind.code ++ f.source ++ f.dest ++ BitVec.ofBool f.group ++ BitVec.ofNat 2 f.fold ++
    BitVec.ofBool f.taken ++ BitVec.ofBool f.refused ++ BitVec.ofBool f.damaged ++ (0 : BitVec 2) ++
    BitVec.ofNat 8 f.hops ++ f.seq ++ f.tag ++ BitVec.ofNat 8 f.payload.length : BitVec 64)

/-- The 72 header bits that a port builds for a frame when its transmission begins (R29). -/
def frameHeader (f : Frame) : BitVec 72 := codeHeader (frameFields f)

/-- The symbols a frame occupies on the line (R18). -/
def Frame.symbols (f : Frame) : Nat := if f.payload.length = 0 then 11 else f.payload.length + 15

/-- The 9 header bytes, high byte first. -/
def headerBytes (header : BitVec 72) : List Byte :=
  [8, 7, 6, 5, 4, 3, 2, 1, 0].map (fun i => header.extractLsb' (8 * i) 8)

/-- The 4 payload CRC bytes, high byte first (R23). -/
def crcBytes (crc : BitVec 32) : List Byte := [3, 2, 1, 0].map (fun i => crc.extractLsb' (8 * i) 8)

/-- A frame on the line (R18): FRAME_START, the header built as R29 gives, the payload and its CRC as held, FRAME_END. -/
def Frame.line (f : Frame) : List Symbol :=
  [.frameStart] ++ (headerBytes (frameHeader f)).map .data ++ f.payload.map .data ++
    (if f.payload = [] then [] else (crcBytes f.crc).map .data) ++ [.frameEnd]

/-- The payload CRC of a frame made here: present when the length is above 0 (R64). -/
def payloadCrc (payload : List Byte) : BitVec 32 := if payload = [] then 0 else crc32 payload

/-! ## Span words (13.3) -/

def SpanState.code : SpanState → Nat
  | .notReady => 0
  | .ready => 1
  | .joined => 2

def SpanState.ofCode : Nat → Option SpanState
  | 0 => some .notReady
  | 1 => some .ready
  | 2 => some .joined
  | _ => none

/-- The two content bytes of a span word. -/
def spanContent (sender : Addr) (st : SpanState) (fault : Bool) : BitVec 16 :=
  sender ++ BitVec.ofNat 2 st.code ++ BitVec.ofBool fault ++ (0 : BitVec 7)

/-- The check byte of a span word (R25). -/
def spanCheck (content : BitVec 16) : Byte := crc8 (wordBytes content)

/-- A span word on the line (R18): SPAN_START, the two content bytes and the check byte, and no closing symbol. -/
def spanLine (content : BitVec 16) : List Symbol :=
  [.spanStart] ++ (wordBytes content).map .data ++ [.data (spanCheck content)]

/-- A transmitter's item, from its first symbol to its last; between items it sends IDLE (R17, R18). -/
def TxState.line : TxState → List Symbol
  | .idle => [.idle]
  | .frame h => h.frame.line
  | .span content => spanLine content

/-- What a port sends from the last change of its transmit state on: ABORT in place of the rest of a frame that was abandoned
(R30), then its item. -/
def PortRec.line (r : PortRec) : List Symbol := (if r.aborts then [.abort] else []) ++ r.tx.line

/-- The sender, span state and far-end fault of a valid span word (R25). The spare bits are not examined. -/
def readSpanWord (content : BitVec 16) (check : Byte) : Option (Addr × SpanState × Bool) :=
  if spanCheck content = check then
    (SpanState.ofCode (content.extractLsb' 8 2).toNat).map
      (fun st => (content.extractLsb' 10 6, st, content.getLsbD 7))
  else none

/-! ## Levels, PRESENCE and CONDITION payloads (13.2) -/

def LevelFlag.code : LevelFlag → Nat
  | .valid => 0
  | .held => 1
  | .unknown => 2

/-- A level byte. -/
def levelByte (l : Level) : Byte := BitVec.ofNat 8 (l.flag.code * 4 + l.level % 4)

/-- A level byte read: none for the fourth flag code (R96). The spare bits are not examined. -/
def readLevel (b : Byte) : Option Level :=
  let level := (b.extractLsb' 0 2).toNat
  match (b.extractLsb' 2 2).toNat with
  | 0 => some ⟨level, .valid⟩
  | 1 => some ⟨level, .held⟩
  | 2 => some ⟨level, .unknown⟩
  | _ => none

/-- Three level bytes read in the order ICE, WIND, FOG. -/
def readLevels (l : List Byte) (i : Nat) : Option (PerCondition Level) :=
  match readLevel (byteAt l i), readLevel (byteAt l (i + 1)), readLevel (byteAt l (i + 2)) with
  | some a, some b, some c => some ⟨a, b, c⟩
  | _, _, _ => none

/-- The CONDITION payload check of R97. -/
def readCondition (payload : List Byte) : Option (PerCondition Level) :=
  if payload.length = 3 then readLevels payload 0 else none

def PhoneRole.code : PhoneRole → Nat
  | .none => 0
  | .roadside => 1
  | .switchboard => 2

def TollRole.code : TollRole → Nat
  | .none => 0
  | .reader => 1
  | .collector => 2

def WeatherRole.code : WeatherRole → Nat
  | .none => 0
  | .station => 1
  | .home => 2

def SignRole.code : SignRole → Nat
  | .none => 0
  | .signs => 1
  | .centre => 2

def PhoneRole.ofCode : Nat → Option PhoneRole
  | 0 => some .none
  | 1 => some .roadside
  | 2 => some .switchboard
  | _ => Option.none

def TollRole.ofCode : Nat → Option TollRole
  | 0 => some .none
  | 1 => some .reader
  | 2 => some .collector
  | _ => Option.none

def WeatherRole.ofCode : Nat → Option WeatherRole
  | 0 => some .none
  | 1 => some .station
  | 2 => some .home
  | _ => Option.none

def SignRole.ofCode : Nat → Option SignRole
  | 0 => some .none
  | 1 => some .signs
  | 2 => some .centre
  | _ => Option.none

/-- The roles byte of PRESENCE and of the image. -/
def rolesByte (r : Roles) : Byte :=
  BitVec.ofNat 8 (r.phone.code * 64 + r.toll.code * 16 + r.weather.code * 4 + r.sign.code)

/-- The roles of a PRESENCE payload: each code one that the Loader leaves in force (R96). -/
def readRoles (b signs : Byte) : Option Roles :=
  match PhoneRole.ofCode (b.extractLsb' 6 2).toNat, TollRole.ofCode (b.extractLsb' 4 2).toNat,
      WeatherRole.ofCode (b.extractLsb' 2 2).toNat, SignRole.ofCode (b.extractLsb' 0 2).toNat with
  | some p, some t, some w, some g =>
    let n := (signs.extractLsb' 0 3).toNat
    if n ≤ 4 then some ⟨p, t, w, g, n⟩ else none
  | _, _, _, _ => none

def LinkState.code : LinkState → Nat
  | .down => 0
  | .settling => 1
  | .joining => 2
  | .up => 3
  | .isolated => 4

def LinkState.ofCode : Nat → Option LinkState
  | 0 => some .down
  | 1 => some .settling
  | 2 => some .joining
  | 3 => some .up
  | 4 => some .isolated
  | _ => none

def ErrorState.code : ErrorState → Nat
  | .active => 0
  | .warning => 1
  | .isolated => 2

def ErrorState.ofCode : Nat → Option ErrorState
  | 0 => some .active
  | 1 => some .warning
  | 2 => some .isolated
  | _ => none

/-- The two bytes of a port summary. -/
def portBytes (p : PortSummary) : List Byte :=
  [BitVec.ofNat 8 (p.link.code * 32 + p.errorState.code * 8 + (if p.folded then 4 else 0)), addrByte p.neighbour]

def readPort (a b : Byte) : Option PortSummary :=
  match LinkState.ofCode (a.extractLsb' 5 3).toNat, ErrorState.ofCode (a.extractLsb' 3 2).toNat with
  | some l, some e => some ⟨l, e, a.getLsbD 2, addrOf b⟩
  | _, _ => none

/-- The PRESENCE payload (13.2). -/
def presencePayload (p : PresencePart) (levels : PerCondition Level) : List Byte :=
  [rolesByte p.roles, BitVec.ofNat 8 (p.roles.signCount % 8)] ++ portBytes p.west ++ portBytes p.east ++
    levels.toList.map levelByte ++
    [BitVec.ofNat 8 p.offHook, BitVec.ofNat 8 p.occupancy, BitVec.ofNat 8 p.alerts]

/-- The PRESENCE payload check of R96. -/
def readPresence (l : List Byte) : Option (PresencePart × PerCondition Level) :=
  let offHook := (byteAt l 9).toNat
  let occupancy := (byteAt l 10).toNat
  let alerts := (byteAt l 11).toNat
  if l.length = 12 ∧ offHook ≤ 4 ∧ occupancy ≤ 96 ∧ alerts ≤ 10 then
    match readRoles (byteAt l 0) (byteAt l 1), readPort (byteAt l 2) (byteAt l 3), readPort (byteAt l 4) (byteAt l 5),
        readLevels l 6 with
    | some r, some w, some e, some v => some (⟨r, w, e, offHook, occupancy, alerts⟩, v)
    | _, _, _, _ => none
  else none

/-! ## CALL payloads (13.2) -/

inductive CallMessage where
  | setup | accept | queued | connect | release | released | ring | ringAck | lineBusy | ringAnswered
  deriving DecidableEq, Repr

def CallMessage.code : CallMessage → Nat
  | .setup => 1
  | .accept => 2
  | .queued => 3
  | .connect => 4
  | .release => 5
  | .released => 6
  | .ring => 7
  | .ringAck => 8
  | .lineBusy => 9
  | .ringAnswered => 10

def CallMessage.ofCode : Nat → Option CallMessage
  | 1 => some .setup
  | 2 => some .accept
  | 3 => some .queued
  | 4 => some .connect
  | 5 => some .release
  | 6 => some .released
  | 7 => some .ring
  | 8 => some .ringAck
  | 9 => some .lineBusy
  | 10 => some .ringAnswered
  | _ => none

def callPayload (m : CallMessage) (arg : Nat) : List Byte := [BitVec.ofNat 8 m.code, BitVec.ofNat 8 arg]

/-! ## SIGN payloads (13.2, R181) -/

inductive SignCommand where
  | set (id : Word) (priority : Nat) (lifetime : Nat) (text : List Byte)
  | clear (id : Word)
  | test (pattern : Byte) (duration : Nat)
  deriving DecidableEq, Repr

/-- The command of a SIGN payload with its sign mask, when the length fits the command and its values lie in their
ranges (R181). A command byte that is none of SET, CLEAR and TEST fits no command, which refuses the payload (DESIGN CHOICE,
log 50: the manual names no effect of it). -/
def readSignCommand (l : List Byte) : Option (SignCommand × BitVec 4) :=
  let mask := (byteAt l 1).extractLsb' 0 4
  match (byteAt l 0).toNat with
  | 1 =>
    let priority := (byteAt l 4).toNat
    if 8 ≤ l.length ∧ l.length ≤ 207 ∧ 1 ≤ priority ∧ priority ≤ 7 then
      some (.set (wordAt l 2) priority (natAt l 5) (l.drop 7), mask)
    else none
  | 2 => if l.length = 4 then some (.clear (wordAt l 2), mask) else none
  | 3 =>
    let duration := natAt l 3
    if l.length = 5 ∧ byteAt l 2 ≠ 0 ∧ 1 ≤ duration ∧ duration ≤ 600 then some (.test (byteAt l 2) duration, mask)
    else none
  | _ => none

/-! ## Link messages (13.4) -/

def kindRejected : Byte := 0x02
def kindDelivered : Byte := 0x03
def kindCollected : Byte := 0x04
def kindShow : Byte := 0x11
def kindOutcome : Byte := 0x15
def kindReport : Byte := 0x22
def kindLevels : Byte := 0x23
def kindReply : Byte := 0x32
def kindAnswer : Byte := 0x33

/-- The characters of a link message as the transmitter sends them (R13). -/
def Message.characters (m : Message) : List Byte :=
  let checked := [m.kind, m.tag, BitVec.ofNat 8 m.body.length] ++ m.body
  [0x7E] ++ checked ++ wordBytes (crc16 checked)

/-- A character as its link carries it (R12, R200): the start bit, which is low, the eight bits, least significant first, and
the stop bit, which is high but in a framing error. -/
def charBits (c : LinkChar) : List Bool := [false] ++ (List.range 8).map c.value.getLsbD ++ [!c.framing]

/-- The character that ten bits of a link spell; none where the first is no start bit. -/
def readChar : List Bool → Option LinkChar
  | [false, b0, b1, b2, b3, b4, b5, b6, b7, stop] =>
    some {
      value := BitVec.ofBool b7 ++ BitVec.ofBool b6 ++ BitVec.ofBool b5 ++ BitVec.ofBool b4 ++ BitVec.ofBool b3 ++
        BitVec.ofBool b2 ++ BitVec.ofBool b1 ++ BitVec.ofBool b0
      framing := !stop }
  | _ => none

/-- A link message as the transmitter sends it, bit by bit. -/
def Message.bits (m : Message) : List Bool := m.characters.flatMap (fun b => charBits { value := b })

/-- The reader tag: the first 4 bytes of a record as an unsigned number, high byte first, with zero bytes in place of any
the body lacks (chapter 9, R143). -/
def readerTag (body : List Byte) : BitVec 32 := byteAt body 0 ++ byteAt body 1 ++ byteAt body 2 ++ byteAt body 3

def tagBytes (t : BitVec 32) : List Byte :=
  [t.extractLsb' 24 8, t.extractLsb' 16 8, t.extractLsb' 8 8, t.extractLsb' 0 8]

/-- The result codes of OUTCOME (13.4). -/
def FrameOutcome.code : FrameOutcome → Nat
  | .taken => 1
  | .partly => 2
  | .refused => 3
  | .untaken => 4
  | .damaged => 5
  | .lost => 6

/-- The result code BAD of OUTCOME. -/
def outcomeBad : Nat := 7

/-- The result codes of ANSWER (13.4). -/
def Result.code : Result → Nat
  | .taken => 1
  | .bad => 2
  | .timeout => 3
  | .keptImage => 4
  | .busy => 5

/-- The sections that a section set names, in order (13.4). Bits 15 to 9 are not examined. -/
def sectionsOf (set : Word) : List Nat := (List.range 9).filter (fun i => set.getLsbD i)

/-- The body of a REQUEST: target, command and section set, when it is well formed (R191). -/
def readRequest (body : List Byte) : Option (Addr × JobCommand) :=
  let target := (byteAt body 0).toNat
  if body.length = 4 ∧ target ≤ 63 then
    let a := addrOf (byteAt body 0)
    match (byteAt body 1).toNat with
    | 1 => if sectionsOf (wordAt body 2) = [] then none else some (a, .read (sectionsOf (wordAt body 2)))
    | 2 => some (a, .clearAlerts)
    | 3 => some (a, .clearCounters)
    | 4 => some (a, .serviceRestart)
    | _ => none
  else none

/-- The console commands of R126. -/
def readConsole (b : Byte) : Option ConsoleCommand :=
  match b.toNat with
  | 1 => some .openChannel
  | 2 => some .closeChannel
  | 3 => some .answer
  | 4 => some .release
  | 5 => some .callback
  | _ => none

/-! ## Reading the configuration memory (R2) -/

/-- What the Loader does on the configuration memory port. -/
inductive BusAction where
  | clockPulse | start | repeatedStart | stop
  | send (b : Byte)
  | receive (acknowledge : Bool)
  deriving DecidableEq, Repr

/-- How a read attempt ended. -/
inductive ReadResult where
  /-- CSDA still low after the ninth clock pulse. -/
  | dataLineStuck
  /-- The memory did not acknowledge the bus address. -/
  | noBusAck
  /-- The memory did not acknowledge the word address. -/
  | noWordAck
  /-- The bytes read, in order. -/
  | bytes (image : List Byte)
  deriving DecidableEq, Repr

/-- The bus address 0x50 with the write direction and with the read direction. -/
def busWrite : Byte := 0xA0
def busRead : Byte := 0xA1

/-- One read attempt (R2, steps 1 to 5): what the Loader does, given the bus's answers, and how the attempt ends. An attempt
that fails takes none of the steps after the one at which it fails (log 43). -/
def BusAnswers.attempt (a : BusAnswers) : List BusAction × ReadResult :=
  match a.released with
  | none => (List.replicate 9 .clockPulse, .dataLineStuck)
  | some pulses =>
    let freed : List BusAction := if pulses = 0 then [] else List.replicate pulses.val .clockPulse ++ [.stop]
    let written := freed ++ [.start, .send busWrite]
    if !a.writeAck then (written, .noBusAck)
    else
      let worded := written ++ [.send 0]
      if !a.wordAck then (worded, .noWordAck)
      else
        let turned := worded ++ [.repeatedStart, .send busRead]
        if !a.readAck then (turned, .noBusAck)
        else
          (turned ++ List.replicate (Config.imageBytes - 1) (.receive true) ++ [.receive false, .stop], .bytes a.bytes)

/-- How the attempt ends. -/
def BusAnswers.result (a : BusAnswers) : ReadResult := (BusAnswers.attempt a).2

/-! ## The configuration image (R3, R4, R77, 13.5) -/

def clampNat (lo hi n : Nat) : Nat := max lo (min hi n)

/-- The image's sum test and address test (R3). -/
def imagePasses (raw : List Byte) : Bool :=
  (raw.foldl (fun n b => (n + b.toNat) % 256) 0 == 0xFF) &&
    decide (1 ≤ (byteAt raw 0).toNat) && decide ((byteAt raw 0).toNat ≤ 63)

/-- An address field: a value above 63 becomes 0 (R4). -/
def imageAddr (raw : List Byte) (i : Nat) : Addr := if (byteAt raw i).toNat ≤ 63 then addrOf (byteAt raw i) else 0

/-- The shares as the image holds them (13.5, offsets 27 to 40). -/
def rawShares (raw : List Byte) : PerUser Share :=
  let share i : Share := ⟨(byteAt raw (27 + 2 * i)).toNat, (byteAt raw (28 + 2 * i)).toNat⟩
  ⟨share 0, share 1, share 2, share 3, share 4, share 5, share 6⟩

/-- The shares brought into order (R77): maxima raised to their guarantees, or the defaults when the guarantees together
exceed the store. -/
def orderShares (sh : PerUser Share) : PerUser Share × ShareOrigin :=
  if Config.cells < (sh.toList.map (·.guarantee)).sum then (Share.defaults, .defaults)
  else (sh.map (fun x => ⟨x.guarantee, max x.guarantee x.maximum⟩), .image)

/-- The changes that R77 counts: each maximum raised, and the replacement by the defaults once. -/
def shareChanges (sh : PerUser Share) : Nat :=
  ((sh.toList.filter (fun x => decide (x.maximum < x.guarantee))).length) +
    (if Config.cells < (sh.toList.map (·.guarantee)).sum then 1 else 0)

/-- One condition's thresholds, forced ascending (R4), and its other fields. `i` is 0, 1, 2 for ICE, WIND, FOG. -/
def imageCondition (raw : List Byte) (i : Nat) : ConditionConfig :=
  let r1 := intAt raw (69 + 6 * i)
  let r2 := max (intAt raw (71 + 6 * i)) r1
  { r1 := r1
    r2 := r2
    r3 := max (intAt raw (73 + 6 * i)) r2
    hysteresis := natAt raw (87 + 2 * i)
    pUp := (byteAt raw (93 + i)).toNat
    pDown := (byteAt raw (96 + i)).toNat
    patternWarn := byteAt raw (99 + 2 * i)
    patternSevere := byteAt raw (100 + 2 * i) }

/-- The sign role an image gives; an unknown code becomes NONE (R4). -/
def imageSignRole (raw : List Byte) : SignRole :=
  (SignRole.ofCode ((byteAt raw 1).extractLsb' 0 2).toNat).getD .none

/-- The roles of an image (R4). -/
def imageRoles (raw : List Byte) : Roles :=
  let b := byteAt raw 1
  { phone := (PhoneRole.ofCode (b.extractLsb' 6 2).toNat).getD .none
    toll := (TollRole.ofCode (b.extractLsb' 4 2).toNat).getD .none
    weather := (WeatherRole.ofCode (b.extractLsb' 2 2).toNat).getD .none
    sign := imageSignRole raw
    signCount :=
      if imageSignRole raw = .signs then clampNat 1 4 (byteAt raw 2).toNat else (byteAt raw 2).toNat }

/-- The line pulse bit and the service pulse bit after R4. -/
def imageLineBit (raw : List Byte) : Nat := clampNat 6 12 (byteAt raw 16).toNat
def imageServiceBit (raw : List Byte) : Nat := max (clampNat 10 16 (byteAt raw 17).toNat) (imageLineBit raw + 1)

/-- The clamped fields of a raw image (R4, 13.5). -/
def imageOf (raw : List Byte) : Image :=
  let b i := (byteAt raw i).toNat
  { address := addrOf (byteAt raw 0)
    roles := imageRoles raw
    phonePrimary := imageAddr raw 3
    phoneAlternate := imageAddr raw 4
    tollPrimary := imageAddr raw 5
    tollAlternate := imageAddr raw 6
    weatherPrimary := imageAddr raw 7
    weatherAlternate := imageAddr raw 8
    maintenance := imageAddr raw 9
    zoneStations := [imageAddr raw 10, imageAddr raw 11, imageAddr raw 12, imageAddr raw 13]
    groupCode := addrOf (byteAt raw 14)
    groupMask := addrOf (byteAt raw 15)
    lineBit := imageLineBit raw
    serviceBit := imageServiceBit raw
    sampleBit := clampNat 17 21 (b 18)
    lossLimit := max 2 (b 19)
    joinHoldOff := max 16 (natAt raw 20)
    recovery := natAt raw 22
    warning := b 24
    warningClear := b 25
    isolation := b 26
    shares := (orderShares (rawShares raw)).1
    returnTimeout := b 41
    starveLimit := b 42
    holdbackPeriod := b 43
    holdbackQuota := clampNat 1 255 (b 44)
    presenceInterval := b 45
    peerLossLimit := b 46
    rates := ⟨clampNat 0 7 (b 47), clampNat 0 7 (b 48), clampNat 0 7 (b 49), clampNat 0 7 (b 50)⟩
    retryLimit := b 51
    parkInterval := natAt raw 52
    statusTimeout := b 54
    smoothing := ⟨clampNat 0 7 (b 55), clampNat 0 7 (b 56), clampNat 0 7 (b 57), clampNat 0 7 (b 58),
      clampNat 0 7 (b 59)⟩
    stepTa := b 60
    stepTs := b 61
    stepH := b 62
    staleLimit := b 63
    wetBonus := b 64
    staleClear := natAt raw 65
    reportInterval := clampNat 60 3600 (natAt raw 67)
    conditions := ⟨imageCondition raw 0, imageCondition raw 1, imageCondition raw 2⟩
    conditionsPriority := clampNat 1 7 (b 105)
    incidentPriority := clampNat 1 7 (b 106)
    incidentPattern := byteAt raw 107
    incidentSet := (byteAt raw 108).extractLsb' 0 4
    incidentDelay := natAt raw 109
    clearDelay := natAt raw 111
    showTimeout := b 113
    faultRepeat := b 114
    enable := (wordAt raw 115).extractLsb' 0 9 }

/-- 1 for a field that the Loader has changed, 0 for one left as it was. -/
def changed {α : Type} [DecidableEq α] (raw clamped : α) : Nat := if raw = clamped then 0 else 1

/-- The count of clamped fields (R4, R77). The priorities and the counts marked "0 as 1" are read so by their owners and
are not clamped by the Loader (log 42). -/
def clampedCount (raw : List Byte) : Nat :=
  let b i := (byteAt raw i).toNat
  let i := imageOf raw
  let roles := byteAt raw 1
  let roleChanges :=
    [(roles.extractLsb' 6 2).toNat, (roles.extractLsb' 4 2).toNat, (roles.extractLsb' 2 2).toNat,
      (roles.extractLsb' 0 2).toNat].countP (fun c => decide (c = 3))
  let addresses := [3, 4, 5, 6, 7, 8, 9, 10, 11, 12, 13].countP (fun k => decide (63 < b k))
  let thresholds (c : ConditionConfig) (k : Nat) :=
    changed (intAt raw (71 + 6 * k)) c.r2 + changed (intAt raw (73 + 6 * k)) c.r3
  roleChanges + addresses + changed (b 2) i.roles.signCount + changed (b 16) i.lineBit + changed (b 17) i.serviceBit +
    changed (b 18) i.sampleBit + changed (b 19) i.lossLimit + changed (natAt raw 20) i.joinHoldOff +
    changed (b 44) i.holdbackQuota + changed (b 47) i.rates.toll + changed (b 48) i.rates.sign +
    changed (b 49) i.rates.weather + changed (b 50) i.rates.service + changed (b 55) i.smoothing.ta +
    changed (b 56) i.smoothing.ts + changed (b 57) i.smoothing.h + changed (b 58) i.smoothing.w +
    changed (b 59) i.smoothing.v + changed (natAt raw 67) i.reportInterval + thresholds i.conditions.ice 0 +
    thresholds i.conditions.wind 1 + thresholds i.conditions.fog 2 + shareChanges (rawShares raw)

end Sys2Proof.Machine
end

