-- ==== Sys2Proof/Machine/Flags.lean ====
section
/-! DEFINITION. The part's flags and outputs: the alert latches and ALERT_N (12.2), the ready outputs (R15, R80), and the
home choices (R101). -/

namespace Sys2Proof.Machine

/-! ## Alerts (R197, R198) -/

def State.alert (s : State) (a : Alert) : AlertRec := s.alerts.get {} a

/-- A block reports an event: its latch is set, the time is stored when the latch was clear, and its occurrence counter
rises (R197). -/
def State.report (a : Alert) (s : State) : State :=
  let r := s.alert a
  (s.modAlerts (fun t => t.put Alert.ctorIdx {} a
    { latched := true, time := if r.latched then r.time else s.timebase })).count (.occurrence a)

/-- A clear of the latches (R197): every latch becomes clear, but for CONFIG_FAULT in TRANSPARENT. The stored times
stay. -/
def State.clearLatches (s : State) : State :=
  s.modAlerts (fun t => (t.map (fun e =>
    if s.start = .transparent ∧ e.1 = .configFault then e else (e.1, { e.2 with latched := false }))).filter
      (fun e => decide (e.2 ≠ {})))

/-- Every latch clear: the end of a service restart, where no start state keeps CONFIG_FAULT (R8, R197). -/
def State.dropLatches (s : State) : State :=
  s.modAlerts (fun t => (t.map (fun e => (e.1, { e.2 with latched := false }))).filter (fun e => decide (e.2 ≠ {})))

/-- The ten events, in the order of the table of 12.2. -/
def allAlerts : List Alert :=
  [.portWarning, .portIsolated, .foldChange, .addressClash, .cellShortage, .journalParked, .switchboardUnreachable,
    .signFault, .weatherStale, .configFault]

/-- The count of latched events, 0 to 10 (R197). -/
def State.latchedCount (s : State) : Nat := allAlerts.countP (fun a => (s.alert a).latched)

/-- Whether the enable set has an event's flag (R198); CONFIG_FAULT has none, and in TRANSPARENT all are clear. -/
def State.enabled (s : State) (a : Alert) : Bool :=
  a != .configFault && s.start != .transparent && s.image.enable.getLsbD a.ctorIdx

/-- ALERT_N is driven low (R198). -/
def State.alertLow (s : State) : Bool :=
  s.awake && allAlerts.any (fun a => (s.alert a).latched && (a == .configFault || s.enabled a))

/-! ## Event counters as a whole (R194, R8) -/

/-- Every event counter at 0 and each peak count at its user's count (R85, R194). -/
def State.clearAllCounters (s : State) : State :=
  { s with
    counters := []
    store := { s.store with users := s.store.users.map (fun u => { u with peak := u.count }) } }

/-! ## Home choice (R101) -/

def State.peer (s : State) (a : Addr) : Peer := s.peers.entries.get {} a

def State.peerPresent (s : State) (a : Addr) : Bool := (s.peer a).state == .present

/-- The home choice from a primary and an alternate home. -/
def State.choose (s : State) (primary alternate : Addr) : Addr :=
  if primary ≠ 0 ∧ s.peerPresent primary then primary
  else if alternate ≠ 0 ∧ s.peerPresent alternate then alternate
  else primary

def State.phoneHome (s : State) : Addr := s.choose s.image.phonePrimary s.image.phoneAlternate
def State.tollHome (s : State) : Addr := s.choose s.image.tollPrimary s.image.tollAlternate
def State.weatherHome (s : State) : Addr := s.choose s.image.weatherPrimary s.image.weatherAlternate

/-! ## Ready outputs (R15, R80) -/

/-- Whether a link's job can accept one more message (R142, R159, R177, R187, R191). -/
def State.jobAccepts (s : State) : Link → Bool
  | .toll =>
    match s.image.roles.toll with
    | .reader => decide (s.journal.entries.length < Config.journalPlaces) && s.store.able .journal
    | .collector => true
    | .none => false
  | .sign =>
    match s.image.roles.sign with
    | .signs => true
    | .centre => s.signs.buffer.isNone && s.store.able .ordinaryOut
    | .none => false
  | .weather => true
  | .service => s.maint.slot.isNone && s.maint.wait.isNone && s.store.able .ordinaryOut

/-- A link's ready output (R15). -/
def State.readyOut (s : State) (l : Link) : Bool := s.linkActive l && s.jobAccepts l

end Sys2Proof.Machine
end

