-- ==== Sys2Proof/Machine/Links.lean ====
section
/-! DEFINITION. The record links' receivers (R11 to R15): how characters become messages, what becomes of a message, and the
gap timer. -/

namespace Sys2Proof.Machine

/-! ## The characters of a message (R13, R14) -/

/-- The start marker. -/
def startMarker : Byte := 0x7E

/-- What the characters after a start marker have come to: more are to come, or the message is malformed, or it is good. -/
inductive Reception where
  | more | malformed
  | good (kind tag : Byte) (body : List Byte)
  deriving DecidableEq, Repr

/-- The bytes after a start marker, each without a framing error: kind, tag, length, body and CRC. The length is judged when
it comes, and the CRC when its second byte has come. -/
def reception (bytes : List Byte) : Reception :=
  let length := (byteAt bytes 2).toNat
  if bytes.length < 3 then .more
  else if Config.longestBody < length then .malformed
  else if bytes.length < length + 5 then .more
  else if wordAt bytes (length + 3) = crc16 (bytes.take (length + 3)) then
    .good (byteAt bytes 0) (byteAt bytes 1) ((bytes.drop 3).take length)
  else .malformed

/-- The receiver takes a character. `begins` is what becomes of a message that begins now, none where the link ignores what
it receives. The second value is what a message that ends with the character came to. A start marker with a framing error
begins a message that it ends, malformed (log 40). -/
def LinkRx.hear (begins : Option Fate) (c : LinkChar) : LinkRx → LinkRx × Option (Fate × Reception)
  | .hunting =>
    match begins with
    | none => (.hunting, none)
    | some fate =>
      if c.value = startMarker then
        if c.framing then (.hunting, some (fate, .malformed)) else (.receiving fate [], none)
      else (.hunting, none)
  | .receiving fate bytes =>
    if c.framing then (.hunting, some (fate, .malformed))
    else match reception (bytes ++ [c.value]) with
      | .more => (.receiving fate (bytes ++ [c.value]), none)
      | .malformed => (.hunting, some (fate, .malformed))
      | .good kind tag body => (.hunting, some (fate, .good kind tag body))

/-- The receiver is receiving a message. -/
def LinkRx.busy : LinkRx → Bool
  | .hunting => false
  | .receiving _ _ => true

/-- The record after a character: the gap timer is armed at the end of each character after which the message goes on, and
stopped elsewhere (R14). -/
def LinkRec.received (x : LinkRx) (r : LinkRec) : LinkRec :=
  { r with rx := x, gap := if x.busy then Timer.arm Config.gapPulses else Timer.stopped }

/-- A line pulse is counted by the gap timer (R14). -/
def LinkRec.tick (r : LinkRec) : LinkRec := { r with gap := r.gap.tick }

/-- A message in reception as a service restart begins: it will be discarded without a count (R7; log 51). -/
def LinkRx.drop : LinkRx → LinkRx
  | .hunting => .hunting
  | .receiving _ bytes => .receiving .dropped bytes

def LinkRec.drop (r : LinkRec) : LinkRec := { r with rx := r.rx.drop }

/-! ## What becomes of a message (R13, R15) -/

/-- The message kinds that a link accepts in the station's roles (R142, R159, R177, R191). -/
def State.acceptsKind (l : Link) (kind : Byte) (s : State) : Bool :=
  match l with
  | .toll => s.image.roles.toll == .reader && kind == 0x01
  | .sign =>
    (s.image.roles.sign == .signs && (kind == 0x12 || kind == 0x13)) || (s.image.roles.sign == .centre && kind == 0x14)
  | .weather => s.image.roles.weather == .station && kind == 0x21
  | .service => kind == 0x31

/-- What the end of a message gives. -/
inductive LinkEvent where
  | malformed | unknown | overrun
  /-- A good message of a kind that the link accepts, for the link's job. -/
  | message (kind tag : Byte) (body : List Byte)
  deriving DecidableEq, Repr

/-- What becomes of a message that begins now: none at an inactive link, which ignores it (R11, R15). -/
def State.beginning (l : Link) (s : State) : Option Fate :=
  if s.linkActive l then some (if s.readyOut l then .handed else .overrun) else none

/-- The event of a message that has ended, none for one that is discarded without a count: a service restart
began meanwhile, or the link is inactive (R7, R11; log 51). -/
def State.ending (l : Link) (fate : Fate) (r : Reception) (s : State) : Option LinkEvent :=
  if !s.linkActive l then none
  else match fate, r with
    | .dropped, _ => none
    | _, .more => none
    | _, .malformed => some .malformed
    | .overrun, .good _ _ _ => some .overrun
    | .handed, .good kind tag body => some (if s.acceptsKind l kind then .message kind tag body else .unknown)

/-- A link receives a character: the event it brings, and the state. -/
def State.hear (l : Link) (c : LinkChar) (s : State) : Option LinkEvent × State :=
  let (x, ended) := (s.link l).rx.hear (s.beginning l) c
  let event := match ended with
    | some (fate, r) => s.ending l fate r
    | none => none
  (event, s.modLink l (LinkRec.received x))

/-- A link receives characters of which the last, and only it, brings an event; none for any other characters. -/
def State.heard (l : Link) (chars : List LinkChar) (s : State) : Option (LinkEvent × State) :=
  untilEvent (State.hear l) chars s

/-- The links receive characters of which none brings an event; none for any other characters. -/
def State.hearQuietly (chars : List (Link × LinkChar)) (s : State) : Option State :=
  withoutEvent (fun c => State.hear c.1 c.2) chars s

/-- The characters of a LINE_PULSE: they are received where none of them ends a message of its own row, and not at all
elsewhere (log 7). -/
def State.hearAll (heard : List (Link × LinkChar)) (s : State) : State := (s.hearQuietly heard).getD s

/-! ## The gap timer (R14) -/

/-- A message is being received and its gap timer has expired. -/
def LinkRec.gapOver (r : LinkRec) : Bool := r.rx.busy && r.gap.expired

/-- The event of a message that the gap timer ends. -/
def State.gapEvent (l : Link) (s : State) : Option LinkEvent :=
  match (s.link l).rx with
  | .receiving fate _ => s.ending l fate .malformed
  | .hunting => none

/-- The gap timer's expiry: the message is malformed, and the receiver hunts. -/
def State.gapExpires (l : Link) (s : State) : State :=
  let s' := s.modLink l (LinkRec.received .hunting)
  if (s.gapEvent l).isSome then s'.count (.link l .malformed) else s'

end Sys2Proof.Machine
end

