-- ==== Sys2Proof/Machine/Frames.lean ====
section
/-! DEFINITION. The placing of frames in the local queues (R64, R74, R81, R82) and the quota of local ordinary
insertions (R90). -/

namespace Sys2Proof.Machine

/-- A local frame as the Carriage Unit completes it (R64). -/
def State.makeFrame (s : State) (kind : Kind) (dest : Addr) (group : Bool) (tag : Byte) (seq : Word)
    (payload : List Byte) : Frame where
  kind := kind
  source := s.image.address
  dest := dest
  group := group
  seq := seq
  tag := tag
  payload := payload
  crc := payloadCrc payload

/-- A frame with its cell joins the local queue of its kind; a kind with a sequence counter takes its value (R74). -/
def State.insertLocal (u : User) (n : Nat) (kind : Kind) (dest : Addr) (group : Bool) (tag : Byte)
    (payload : List Byte) (s : State) : State :=
  let f := s.makeFrame kind dest group tag (s.seqs.get kind) payload
  (s.modSeqs (Seqs.next kind)).modQueues (Queues.joinLocal { frame := f, cell := n, user := u })

/-- A frame of a kind with a sequence counter is placed when the user is granted a cell; otherwise it takes no number.
The first value says whether it was placed. -/
def State.place (u : User) (kind : Kind) (dest : Addr) (group : Bool) (tag : Byte) (payload : List Byte) (s : State) :
    Bool × State :=
  match s.requestCell u with
  | (some n, s) => (true, s.insertLocal u n kind dest group tag payload)
  | (none, s) => (false, s)

/-- What a failed URGENT_OUT request does (R81). -/
def State.urgentRefused (s : State) : State := (s.tally .urgentNotSent).report .cellShortage

/-- A CALL frame is placed, or counted as not sent (R118, R138). -/
def State.sendCall (dest : Addr) (tag : Byte) (m : CallMessage) (arg : Nat) (s : State) : State :=
  match s.place .urgentOut .call dest false tag (callPayload m arg) with
  | (true, s) => s
  | (false, s) => s.urgentRefused

/-- A VOICE frame with its own sequence is placed, or counted as not sent (R120). -/
def State.sendVoice (dest : Addr) (tag : Byte) (seq : Word) (payload : List Byte) (s : State) : State :=
  match s.requestCell .urgentOut with
  | (some n, s) =>
    s.modQueues (Queues.joinLocal
      { frame := s.makeFrame .voice dest false tag seq payload, cell := n, user := .urgentOut })
  | (none, s) => s.urgentRefused

/-- A HOLDBACK is placed, or skipped (R87). -/
def State.sendHoldback (s : State) : State :=
  match s.place .urgentOut .holdback 0 false (BitVec.ofNat 8 s.image.holdbackQuota) [] with
  | (true, s) => s.tally .holdbackSent
  | (false, s) => (s.tally .holdbackSkipped).urgentRefused

/-- Removal of the frames that `p` picks from a list of held frames: those kept and those removed. -/
def splitHeld (p : Held → Bool) (l : List Held) : List Held × List Held := (l.filter (fun h => !p h), l.filter p)

/-- The frames that `p` picks leave the local URGENT queue and their cells are freed (R64, R79). -/
def State.dropUrgent (p : Held → Bool) (s : State) : State :=
  let gone := s.queues.localUrgent.filter p
  State.releaseAll gone (s.modQueues (fun q => { q with localUrgent := q.localUrgent.filter (fun h => !p h) }))

/-- The same for the local CLASS2 queue. -/
def State.dropClass2 (p : Held → Bool) (s : State) : State :=
  let gone := s.queues.localClass2.filter p
  State.releaseAll gone (s.modQueues (fun q => { q with localClass2 := q.localClass2.filter (fun h => !p h) }))

/-- The waiting frame of a kind in the local CLASS2 queue has its payload and payload CRC rebuilt (R98, R170). -/
def State.rebuildClass2 (kind : Kind) (payload : List Byte) (s : State) : State :=
  s.modQueues (fun q => { q with
    localClass2 := q.localClass2.map (fun h =>
      if h.frame.kind = kind then
        { h with frame := { h.frame with payload := payload, crc := payloadCrc payload } }
      else h) })

/-- Whether a frame of a kind waits in the local CLASS2 queue, not yet launched. -/
def State.waitsClass2 (kind : Kind) (s : State) : Bool := s.queues.localClass2.any (fun h => h.frame.kind == kind)

/-! ## The applied quota (R90) -/

/-- The applied quota: the smallest of the list, none when it is unlimited. -/
def Holdback.applied (h : Holdback) : Option Nat := (h.entries.map (·.quota)).min?

/-- Whether one more local ordinary insertion is allowed. -/
def Holdback.allows (h : Holdback) : Bool :=
  match h.applied with
  | none => true
  | some q => decide (h.inserted < q)

/-- The Holdback Unit is told that a local ordinary insertion has started: the count rises, the starved flag clears with
its repeat timer, and the starvation timer is armed again while both conditions hold (R66, R86, R87, R90). -/
def Holdback.insertion (limit : Nat) (starving : Bool) (h : Holdback) : Holdback :=
  { h with
    inserted := min (h.inserted + 1) 255
    starved := false
    repeating := Timer.stopped
    starvation := if starving then Timer.arm limit else Timer.stopped }

end Sys2Proof.Machine
end

