-- ==== Sys2Proof/Machine/Signs.lean ====
section
/-! DEFINITION. The Sign Unit (chapter 11): entries, zone levels, selection, the SHOW handover and the sign centre. -/

namespace Sys2Proof.Machine

/-! ## Sign records -/

def State.sign (s : State) (i : Fin 4) : SignRec := s.signs.records.get {} i

def State.setSign (i : Fin 4) (r : SignRec) (s : State) : State :=
  s.modSigns (fun u => { u with records := u.records.put Fin.val {} i r })

def State.modSign (i : Fin 4) (f : SignRec → SignRec) (s : State) : State := s.setSign i (f (s.sign i))

/-- The station has sign `i`: the role is SIGNS and the number is below the configured one (R178). -/
def State.hasSign (s : State) (i : Fin 4) : Bool :=
  s.image.roles.sign == .signs && decide (i.val < s.image.roles.signCount)

/-- The configured signs, lowest first: the order in which several signs that change in one step queue their SHOWs
(DESIGN CHOICE, log 45). -/
def State.ownSigns (s : State) : List (Fin 4) := allFour.filter s.hasSign

/-- INCIDENT entries are in use: neither the delay nor the pattern is 0 (R180). -/
def Image.incidentUsed (i : Image) : Bool := i.incidentDelay != 0 && i.incidentPattern != 0

/-! ## Selection (R183) -/

/-- The entry of highest priority; ties are broken INCIDENT, CENTRE, CONDITIONS; TEST has priority 8. -/
def SignRec.select (img : Image) (conditions : Option Byte) (r : SignRec) : Selection :=
  let incident := if r.incident && img.incidentUsed then img.incidentPriority else 0
  let centre := match r.centre with
    | some c => c.priority
    | none => 0
  let weather := if conditions.isSome then img.conditionsPriority else 0
  match r.test with
  | some t => .test t.pattern
  | none =>
    if incident ≠ 0 ∧ centre ≤ incident ∧ weather ≤ incident then .incident img.incidentPattern
    else match r.centre, conditions with
      | some c, some p => if weather ≤ centre then .centre c.identity else .conditions p
      | some c, none => .centre c.identity
      | none, some p => .conditions p
      | none, none => .blank

/-! ## The SHOW handover (R184) -/

/-- The body of a SHOW (13.4): sign, show number, selected kind and content. -/
def SignRec.showBody (i : Fin 4) (number : Byte) (r : SignRec) : List Byte :=
  [BitVec.ofNat 8 i.val, number] ++ match r.selection with
    | .blank => [0]
    | .centre _ => match r.centre with
      | some c => [1] ++ wordBytes c.id ++ c.text
      | none => [1]
    | .conditions p => [2, p]
    | .incident p => [3, p]
    | .test p => [4, p]

/-- The next show number: 255 returns to 1. -/
def nextShow (n : Byte) : Byte := if n = 255 then 1 else n + 1

/-- A SHOW joins the SIGN link's output queue and the handover becomes SENDING. -/
def State.sendShow (i : Fin 4) (show_ : Show) (s : State) : State :=
  (s.modSign i (fun r => { r with handover := .sending, outstanding := some show_, showCounter := r.showCounter })).queueMessage
    .sign { kind := kindShow, body := show_.body, holder := .sign i }

/-- A SHOW with the next show number, built from the current selection. -/
def State.newShow (i : Fin 4) (s : State) : State :=
  let r := s.sign i
  let n := nextShow r.showCounter
  (s.modSign i (fun r => { r with showCounter := n })).sendShow i
    { number := n, selection := r.selection, body := r.showBody i n }

/-- A SHOW starts (R184). -/
def State.startShow (i : Fin 4) (s : State) : State := (s.newShow i).tally .showsSent

/-- The selection of sign `i` is worked out again after a change of its entries; a change of selection starts a SHOW or
waits behind the outstanding one (R183, R184). -/
def State.reselect (i : Fin 4) (s : State) : State :=
  let r := s.sign i
  let sel := r.select s.image s.signs.conditions
  if sel = r.selection then s
  else
    let s := s.setSign i { r with selection := sel }
    if r.handover = .idle then s.startShow i
    else if r.pendingFlag then s.tally .selectionsSuperseded
    else s.modSign i (fun r => { r with pendingFlag := true })

/-- The same on each of the given signs, in order. -/
def State.reselectAll : List (Fin 4) → State → State
  | [], s => s
  | i :: t, s => State.reselectAll t (s.reselect i)

/-- A change of one sign's entries, with R183. -/
def State.changeEntries (i : Fin 4) (f : SignRec → SignRec) (s : State) : State := (s.modSign i f).reselect i

/-- The same change on each of the given signs, in order. -/
def State.changeEntriesAll (f : SignRec → SignRec) : List (Fin 4) → State → State
  | [], s => s
  | i :: t, s => State.changeEntriesAll f t (s.changeEntries i f)

/-! ## Zone levels and the CONDITIONS entry (R179) -/

/-- A level that counts: its flag is VALID or HELD. -/
def Level.counting (l : Level) : Nat := if l.flag = .unknown then 0 else l.level

/-- The level a zone station gives for a condition. -/
def State.zoneStationLevel (s : State) (c : Condition) (a : Addr) : Nat :=
  let p := s.peer a
  match p.levels with
  | some v => if a ≠ 0 ∧ p.state = .present then (v.get c).counting else 0
  | none => 0

/-- The station's own level for a condition. -/
def State.ownLevel (s : State) (c : Condition) : Nat :=
  let r := s.weather.conditions.get c
  if s.image.roles.weather = .station then Level.counting ⟨r.level, r.flag⟩ else 0

/-- The zone level: the largest of them, or 0. -/
def State.zoneLevel (s : State) (c : Condition) : Nat :=
  (s.image.zoneStations.map (s.zoneStationLevel c)).foldl max (s.ownLevel c)

/-- The table pattern of a condition at a level: 0 below WARN. -/
def ConditionConfig.pattern (k : ConditionConfig) (level : Nat) : Byte :=
  if level = 2 then k.patternWarn else if level = 3 then k.patternSevere else 0

/-- The CONDITIONS entry's pattern: of the candidates the highest zone level, ties broken ICE, FOG, WIND. -/
def conditionsEntry (img : Image) (zone : PerCondition Nat) : Option Byte :=
  ([Condition.ice, .fog, .wind].foldl (fun (best : Option (Nat × Byte)) c =>
    let level := zone.get c
    let pattern := (img.conditions.get c).pattern level
    if pattern = 0 then best
    else match best with
      | none => some (level, pattern)
      | some (l, p) => if l < level then some (level, pattern) else some (l, p)) none).map (·.2)

/-- The zone levels and the CONDITIONS entry are computed, without any further effect. -/
def State.setZone (s : State) : State :=
  let zone : PerCondition Nat := ⟨s.zoneLevel .ice, s.zoneLevel .wind, s.zoneLevel .fog⟩
  s.modSigns (fun u => { u with zone := zone, conditions := conditionsEntry s.image zone })

/-- Recomputation at a notice; a change of the CONDITIONS entry is an entry change on every sign. -/
def State.recomputeZone (s : State) : State :=
  if s.image.roles.sign = .signs then
    let s' := s.setZone
    if s'.signs.conditions = s.signs.conditions then s' else s'.reselectAll s'.ownSigns
  else s

/-- A notice about a peer: it concerns the Sign Unit when the peer is a zone station (R95, R97, R179). -/
def State.signPeerNotice (a : Addr) (s : State) : State :=
  if s.image.zoneStations.contains a then s.recomputeZone else s

/-! ## INCIDENT entries (R180) -/

/-- INCIDENT entries are made on the signs of the incident set; one that is made removes the sign's TEST entry. -/
def State.makeIncidents (s : State) : State :=
  s.changeEntriesAll (fun r => { r with incident := true, test := none })
    (s.ownSigns.filter (fun i => s.image.incidentSet.getLsbD i.val))

/-- The INCIDENT entries are removed. -/
def State.removeIncidents (s : State) : State :=
  s.changeEntriesAll (fun r => { r with incident := false }) s.ownSigns

def State.setIncident (st : IncidentState) (t : Timer) (s : State) : State :=
  s.modSigns (fun u => { u with incident := st, incidentTimer := t })

/-- The off-hook count falls to 0. -/
def State.incidentClears (s : State) : State :=
  match s.signs.incident with
  | .rising => s.setIncident .quiet Timer.stopped
  | .active => s.setIncident .falling (Timer.arm s.image.clearDelay)
  | _ => s

/-- The off-hook count rises above 0 (R180). While the incident delay or pattern is 0 the state stays QUIET (DESIGN CHOICE,
log 62). -/
def State.incidentRises (s : State) : State :=
  match s.signs.incident with
  | .quiet =>
    if s.image.incidentUsed then s.setIncident .rising (Timer.arm s.image.incidentDelay) else s
  | .falling => s.setIncident .active Timer.stopped
  | _ => s

/-- The off-hook count goes from `before` to `after` (R119, R180). -/
def State.offHookNotice (before after : Nat) (s : State) : State :=
  if s.image.roles.sign ≠ .signs then s
  else if before = 0 ∧ after ≠ 0 then s.incidentRises
  else if before ≠ 0 ∧ after = 0 then s.incidentClears
  else s

/-- INCIDENT_TIMER_EXPIRY (R180). -/
def State.incidentExpiry (s : State) : State :=
  let s' := s.modSigns (fun u => { u with incidentTimer := u.incidentTimer.take })
  match s.signs.incident with
  | .rising => (s'.setIncident .active Timer.stopped).makeIncidents
  | .falling => (s'.setIncident .quiet Timer.stopped).removeIncidents
  | _ => s'

/-! ## SIGN frames (R181) -/

/-- The configured signs that a mask names. -/
def State.namedSigns (s : State) (mask : BitVec 4) : List (Fin 4) := s.ownSigns.filter (fun i => mask.getLsbD i.val)

/-- SET on one sign: a new CENTRE entry, and at priority 7 no TEST entry. -/
def SignRec.setCentre (e : CentreEntry) (r : SignRec) : SignRec :=
  { r with centre := some e, test := if e.priority = 7 then none else r.test }

/-- Whether a sign's CENTRE entry carries a message id. -/
def SignRec.hasId (id : Word) (r : SignRec) : Bool :=
  match r.centre with
  | some c => c.id == id
  | none => false

/-- CLEAR on one sign. -/
def SignRec.clearCentre (id : Word) (r : SignRec) : SignRec := if r.hasId id then { r with centre := none } else r

/-- A sign on which a TEST may not be put up: an INCIDENT entry, be it one that a restart kept and the new image leaves out
of the selection (DESIGN CHOICE, log 56), or a CENTRE entry of priority 7. -/
def SignRec.barsTest (r : SignRec) : Bool :=
  r.incident || match r.centre with
    | some c => c.priority == 7
    | none => false

/-- SET on each of the given signs in order, each CENTRE entry with a new identity (R178). -/
def State.setCentres (id : Word) (priority lifetime : Nat) (text : List Byte) : List (Fin 4) → State → State
  | [], s => s
  | i :: t, s =>
    let e : CentreEntry :=
      { identity := s.signs.nextIdentity, id := id, priority := priority, text := text
        lifetime := if lifetime = 0 then Timer.stopped else Timer.arm lifetime }
    State.setCentres id priority lifetime text t
      ((s.modSigns (fun u => { u with nextIdentity := u.nextIdentity + 1 })).changeEntries i (SignRec.setCentre e))

/-- A SIGN frame at the copy step: whether it is taken, and what it leaves (R181). -/
def State.signCopy (f : Frame) (s : State) : Bool × State :=
  match readSignCommand f.payload with
  | none => (false, s.tally .signBad)
  | some (c, mask) =>
    let named := s.namedSigns mask
    if named = [] then (false, s.tally .signBad)
    else match c with
      | .set id priority lifetime text => (true, s.setCentres id priority lifetime text named)
      | .clear id =>
        let matched := named.any (fun i => (s.sign i).hasId id)
        (true, (if matched then s else s.tally .clearNoMatch).changeEntriesAll (SignRec.clearCentre id) named)
      | .test pattern duration =>
        if named.any (fun i => (s.sign i).barsTest) then (false, s.tally .testRefused)
        else (true, s.changeEntriesAll
          (fun r => { r with test := some { pattern := pattern, duration := Timer.arm duration } }) named)

/-! ## SHOWN, SIGN_FAULT and the retry timer (R184 to R186) -/

/-- The retry timer once a SHOW has been sent: the show timeout while the sign is OK, the fault repeat while it is
FAULT (R184). -/
def SignRec.armRetry (img : Image) (r : SignRec) : SignRec :=
  { r with
    retry := Timer.arm (if r.fault then img.faultRepeat else img.showTimeout)
    retryOnSample := r.fault }

/-- The last CRC byte of a sign's SHOW has been sent (R184). -/
def State.showSent (i : Fin 4) (s : State) : State :=
  s.modSign i (fun r => ({ r with handover := .awaiting }).armRetry s.image)

/-- The messages of a sign's show place. -/
def Message.ofSign (i : Fin 4) (m : Message) : Bool := m.holder == .sign i

/-- A sign's SHOW leaves the queue if it has not begun; one that has begun is sent to its end without any effect
(R185). -/
def State.withdrawShow (i : Fin 4) (s : State) : State :=
  (s.withdrawMessages .sign (Message.ofSign i)).modLink .sign (LinkRec.disown (Message.ofSign i))

/-- A sign record whose outstanding SHOW has ended with the sign OK (R185). -/
def SignRec.shown (r : SignRec) : SignRec :=
  { r with
    handover := .idle, fault := false, outstanding := none, pendingFlag := false, timeouts := 0
    retry := Timer.stopped, retryOnSample := false }

/-- A SHOWN for sign `i` with a show number (R185). -/
def State.takeShown (i : Fin 4) (number : Byte) (s : State) : State :=
  let r := s.sign i
  match r.outstanding with
  | some o =>
    if r.handover ≠ .idle ∧ o.number = number then
      let s := (s.withdrawShow i).modSign i SignRec.shown
      if r.selection ≠ o.selection then s.startShow i else s
    else s.tally .shownIgnored
  | none => s.tally .shownIgnored

/-- The sign a SHOWN or SIGN_FAULT body names, when the body has two bytes and the number is configured (R177). -/
def State.signOf (body : List Byte) (s : State) : Option (Fin 4) :=
  if body.length = 2 then s.ownSigns.find? (fun i => decide (i.val = (byteAt body 0).toNat)) else none

/-- A SIGN_FAULT message for sign `i` (R186). -/
def State.takeSignFault (i : Fin 4) (s : State) : State :=
  let r := s.sign i
  let s := ((s.modSign i (fun r => { r with fault := true })).report .signFault).tally .signFaultsReported
  match r.handover with
  | .idle => s.startShow i
  | .awaiting => s.modSign i (SignRec.armRetry s.image)
  | .sending => s

/-- The retry timer of sign `i` expires (R186). -/
def State.showRetry (i : Fin 4) (s : State) : State :=
  let r := s.sign i
  let run := min (r.timeouts + 1) 3
  let fails := !r.fault && run == 3
  let s := (s.setSign i
    { r with timeouts := run, fault := r.fault || fails, retry := Timer.stopped, retryOnSample := false }).tally .showTimeouts
  let s := if fails then s.report .signFault else s
  let s := match r.outstanding with
    | some o =>
      if r.selection ≠ o.selection then (s.modSign i (fun r => { r with pendingFlag := false })).newShow i
      else s.sendShow i o
    | none => s.newShow i
  s.tally .showResends

/-! ## The sign centre (R187, R188) -/

/-- The OUTCOME messages in the SIGN link's output queue: the places held in the outcome store. -/
def State.outcomesHeld (s : State) : Nat := (s.link .sign).queue.countP (fun m => m.holder == .outcome)

/-- An OUTCOME is made, or dropped when the store is full (R188). -/
def State.makeOutcome (tag : Byte) (code : Nat) (s : State) : State :=
  if s.outcomesHeld < Config.outcomePlaces then
    s.queueMessage .sign { kind := kindOutcome, tag := tag, body := [BitVec.ofNat 8 code], holder := .outcome }
  else s.tally .outcomesDropped

/-- The centre tries to place a command: the cell is requested only when the registration can succeed, and the entry is
made only when the cell is granted (R187). -/
def State.placeCommand (tag : Byte) (body : List Byte) (s : State) : Bool × State :=
  let a := byteAt body 0
  let seq := s.seqs.sign
  if canRegister .sign seq tag s.returns then
    match s.place .ordinaryOut .sign (addrOf a) (a.getLsbD 6) tag (body.drop 1) with
    | (true, s) => (true, (s.register .sign seq tag).tally .commandsTaken)
    | (false, s) => (false, s)
  else (false, s)

/-- A COMMAND handed to the centre (R187). One that finds the buffer holding a command cannot have begun while the ready
output was high, and is an overrun (R15; log 19). -/
def State.takeCommand (tag : Byte) (body : List Byte) (s : State) : State :=
  if body.length < 2 ∨ 233 < body.length then (s.makeOutcome tag outcomeBad).tally .commandsBad
  else if s.signs.buffer.isSome then s.count (.link .sign .overrun)
  else match s.placeCommand tag body with
    | (true, s) => s
    | (false, s) => (s.modSigns (fun u => { u with buffer := some (tag, body) })).tally .commandsHeld

/-- The held command is tried again (R187). -/
def State.retryCommand (s : State) : State :=
  match s.signs.buffer with
  | none => s
  | some (tag, body) =>
    match s.placeCommand tag body with
    | (true, s) => s.modSigns (fun u => { u with buffer := none })
    | (false, s) => s

end Sys2Proof.Machine
end

