-- ==== Sys2Proof/Machine/Weather.lean ====
section
/-! DEFINITION. The Weather Unit (chapter 10): samples, quantities, severities, levels, announcements, reports, and the
weather home. -/

namespace Sys2Proof.Machine

/-! ## The sample and its range clamping (R160, R163) -/

/-- A sample as the stages use it: a missing field is none. -/
structure Sample where
  fields : PerQuantity (Option Int)
  wet : Option Byte
  deriving DecidableEq, Repr

/-- The sample of a pulse that finds no pending sample. -/
def Sample.allMissing : Sample := { fields := ⟨none, none, none, none, none⟩, wet := none }

/-- The SAMPLE body (13.4). The spare bits of the mask are not examined. -/
def readSample (body : List Byte) : Sample :=
  let mask := byteAt body 0
  let field (i : Nat) (x : Int) : Option Int := if mask.getLsbD i then some x else none
  { fields :=
      ⟨field 0 (intAt body 2), field 1 (intAt body 4), field 2 (natAt body 6), field 3 (natAt body 8),
        field 4 (natAt body 10)⟩
    wet := if mask.getLsbD 5 then some (byteAt body 1) else none }

/-- The range of a quantity (R162). -/
def Quantity.low : Quantity → Int
  | .ta | .ts => -500
  | .h | .w | .v => 0

def Quantity.high : Quantity → Int
  | .ta | .ts => 600
  | .h => 200
  | .w => 700
  | .v => 10000

/-- The clamped value of a present field, with whether it was changed (R163). -/
def Quantity.clamp (q : Quantity) (x : Int) : Int := max (Quantity.low q) (min (Quantity.high q) x)

/-- A value raised by `n`, stopping at 65535 (R171). -/
def satAdd (a n : Nat) : Nat := min (a + n) 65535

/-- Fields counted as clamped at a sample (R163). -/
def Sample.clampedCount (x : Sample) : Nat :=
  (allQuantities.countP (fun q => match x.fields.get q with
    | some v => Quantity.clamp q v != v
    | none => false)) +
  (match x.wet with
    | some b => if b = 0 ∨ b = 1 then 0 else 1
    | none => 0)

/-- The wet flag after a sample (R163). -/
def Sample.wetFlag (x : Sample) (before : Bool) : Bool :=
  match x.wet with
  | some b => b != 0
  | none => before

/-! ## Quantities (R164, R165) -/

/-- The step limit of a quantity, if it has one (R162). -/
def Image.stepLimit (i : Image) : Quantity → Option Nat
  | .ta => some i.stepTa
  | .ts => some i.stepTs
  | .h => some i.stepH
  | .w | .v => none

/-- Smoothing (R165). -/
def smooth (k : Nat) (x S : Int) : Int :=
  if k = 0 then x * 256 else S + (x * 256 - S + 2 ^ (k - 1)) / 2 ^ k

/-- What the second and third stages leave of one quantity. -/
structure Intake where
  after : QuantityRec
  /-- The value entered as accepted (R164). -/
  accepted : Bool := false
  /-- The quantity became STALE. -/
  staled : Bool := false
  /-- The value was suspect. -/
  suspect : Bool := false
  deriving DecidableEq, Repr

/-- Intake of one missing field. -/
def QuantityRec.missed (staleLimit : Nat) (r : QuantityRec) : Intake :=
  let run := min (r.missing + 1) 255
  if r.live && decide (max staleLimit 1 ≤ run) then { after := { r with missing := run, live := false }, staled := true }
  else { after := { r with missing := run } }

/-- A value accepted without smoothing. -/
def QuantityRec.restarted (x : Int) (_ : QuantityRec) : QuantityRec :=
  { live := true, accepted := some x, smoothed := x * 256, missing := 0, suspect := 0 }

/-- Whether |x − A| is within the step limit. -/
def withinStep (limit : Option Nat) (x : Int) (a : Option Int) : Bool :=
  match limit, a with
  | some l, some a => decide ((x - a).natAbs ≤ l)
  | _, _ => true

/-- Intake of one present field with its sample value (R164), smoothed when it was found within the step limit (R165). -/
def QuantityRec.met (limit : Option Nat) (k : Nat) (x : Int) (r : QuantityRec) : Intake :=
  if !r.live then { after := r.restarted x, accepted := true }
  else if withinStep limit x r.accepted then
    { after := { live := true, accepted := some x, smoothed := smooth k x r.smoothed, missing := 0, suspect := 0 }
      accepted := true }
  else if r.suspect < 2 then { after := { r with suspect := r.suspect + 1 }, suspect := true }
  else { after := r.restarted x, accepted := true, suspect := true }

/-- Stages 2 and 3 for one quantity. -/
def intake (img : Image) (x : Sample) (q : Quantity) (r : QuantityRec) : Intake :=
  match x.fields.get q with
  | some v => r.met (img.stepLimit q) (img.smoothing.get q) (Quantity.clamp q v)
  | none => r.missed img.staleLimit

/-- The mean of a LIVE quantity (R162). -/
def QuantityRec.mean (r : QuantityRec) : Option Int := if r.live then some ((r.smoothed + 128) / 256) else none

/-- The gust window after a pulse (R162, R164, R166). -/
def gustsAfter (x : Sample) (i : Intake) (gusts : List Int) : List Int :=
  match x.fields.w with
  | some v => (Quantity.clamp .w v :: gusts).take 3
  | none => if i.staled then [] else gusts

/-! ## Derived values and severity (R166, R167) -/

/-- The frost margin; none when it is absent. -/
def frostMargin (ta ts h : Option Int) : Option Int :=
  match ta, ts, h with
  | some ta, some ts, some h =>
    if h < 100 then some 250 else some (max (-250) (min 250 (ts - (ta - (200 - h)))))
  | _, _, _ => none

/-- The gust figure g3. -/
def gust : List Int → Option Int
  | [a, b, c] => some ((a + b + c + 1) / 3)
  | [a, b] => some ((a + b + 1) / 2)
  | [a] => some a
  | _ => none

/-- The severity of a condition from the quantities, the wet flag and the gust window; none when its inputs are not
available (R167). -/
def severity (wetBonus : Nat) (q : PerQuantity QuantityRec) (wet : Bool) (gusts : List Int) : Condition → Option Int
  | .ice => q.ts.mean.map (fun ts =>
      let b : Int := if wet then wetBonus else 0
      max (-1000) (min 1000 (match frostMargin q.ta.mean q.ts.mean q.h.mean with
        | some f => min (30 - ts) (30 - f) + b
        | none => 30 - ts + b)))
  | .wind => if q.w.live then gust gusts else none
  | .fog => q.v.mean.map (fun v => 10000 - v)

/-! ## The level machine (R168, R169) -/

/-- The number of thresholds that a severity reaches. -/
def ConditionConfig.raw (k : ConditionConfig) (sev : Int) : Nat :=
  [k.r1, k.r2, k.r3].countP (fun r => decide (r ≤ sev))

/-- The threshold of a level from 1 to 3. -/
def ConditionConfig.threshold (k : ConditionConfig) (level : Nat) : Int :=
  if level = 1 then k.r1 else if level = 2 then k.r2 else k.r3

/-- One run of the level machine (R169). -/
def ConditionRec.machine (k : ConditionConfig) (sev : Int) (r : ConditionRec) : ConditionRec :=
  let raw := k.raw sev
  if r.level < raw then
    let up := min (r.up + 1) 255
    if max k.pUp 1 ≤ up then { r with level := raw, up := 0, down := 0 } else { r with up := up, down := 0 }
  else if 0 < r.level ∧ sev < k.threshold r.level - k.hysteresis then
    let down := min (r.down + 1) 255
    if max k.pDown 1 ≤ down then { r with level := r.level - 1, down := 0, up := 0 } else { r with down := down, up := 0 }
  else { r with up := 0, down := 0 }

/-- The sixth stage for one condition, with the severity of this pulse when its inputs are available (R168). -/
def ConditionRec.move (k : ConditionConfig) (staleClear : Nat) (sev : Option Int) (r : ConditionRec) : ConditionRec :=
  match sev, r.flag with
  | some s, .unknown =>
    ConditionRec.machine k s { r with level := 0, flag := .valid, up := 0, down := 0, severity := some s }
  | some s, .valid => ConditionRec.machine k s { r with severity := some s }
  | some s, .held => ConditionRec.machine k s { r with flag := .valid, up := 0, down := 0, severity := some s }
  | none, .unknown => r
  | none, .valid => { r with flag := .held, up := 0, down := 0, held := 0 }
  | none, .held =>
    let held := min (r.held + 1) 65535
    if max staleClear 1 ≤ held then { r with held := held, level := 0, flag := .unknown } else { r with held := held }

/-- A condition's level with its flag. -/
def ConditionRec.shown (r : ConditionRec) : Level := ⟨r.level, r.flag⟩

/-- The station's own levels, as the PRESENCE and CONDITION payloads carry them. -/
def State.ownLevels (s : State) : PerCondition Level := s.weather.conditions.map ConditionRec.shown

/-! ## Announcements (R170) -/

/-- The conditions whose level or flag differs. -/
def changedConditions (before after : PerCondition ConditionRec) : List Condition :=
  allConditions.filter (fun c => (before.get c).shown != (after.get c).shown)

/-- The CONDITION frame of an announcement. -/
def State.announceFrame (s : State) : State :=
  let payload := s.ownLevels.toList.map levelByte
  if s.waitsClass2 .condition then (s.rebuildClass2 .condition payload).tally .conditionsRefreshed
  else match s.place .ordinaryOut .condition 0 false 0 payload with
    | (true, s) => s.tally .conditionsSent
    | (false, s) => s.tally .ordinarySkipped

/-- The levels are announced when any of them differs from what it was; `notice` is what the own-level notice does. -/
def State.announceWith (notice : State → State) (before : PerCondition ConditionRec) (s : State) : State :=
  match changedConditions before s.weather.conditions with
  | [] => s
  | cs => (notice (s.tallies .levelChanges cs.length)).announceFrame

/-- An announcement: the own-level notice makes the Sign Unit recompute its zone levels (R170, R179). -/
def State.announce (before : PerCondition ConditionRec) (s : State) : State := s.announceWith State.recomputeZone before

/-! ## Interval statistics (R171) -/

def least (a : Option Int) : Option Int → Option Int
  | none => a
  | some x => match a with
    | none => some x
    | some y => some (min x y)

def greatest (a : Option Int) : Option Int → Option Int
  | none => a
  | some x => match a with
    | none => some x
    | some y => some (max x y)

/-- The seventh stage. -/
def Stats.gather (q : PerQuantity QuantityRec) (gusts : List Int) (missing suspect clamped : Nat) (t : Stats) : Stats :=
  { samples := t.samples + 1
    taMin := least t.taMin q.ta.mean
    taMax := greatest t.taMax q.ta.mean
    tsMin := least t.tsMin q.ts.mean
    tsMax := greatest t.tsMax q.ts.mean
    gustMax := greatest t.gustMax (gust gusts)
    visMin := least t.visMin q.v.mean
    missing := satAdd t.missing missing
    suspect := satAdd t.suspect suspect
    clamped := satAdd t.clamped clamped
    superseded := t.superseded }

/-! ## The sample work (R161) -/

/-- The intakes of the five quantities. -/
def State.intakes (x : Sample) (s : State) : PerQuantity Intake :=
  let i q := intake s.image x q (s.weather.quantities.get q)
  ⟨i .ta, i .ts, i .h, i .w, i .v⟩

/-- One STALE entry is counted and reported (R164). -/
def State.staleEntries : Nat → State → State
  | 0, s => s
  | n + 1, s => State.staleEntries n ((s.tally .staleEntries).report .weatherStale)

/-- The Weather Unit once stages 1 to 7 are done with a sample. -/
def State.weatherAfter (x : Sample) (s : State) : Weather :=
  let w := s.weather
  let i := s.intakes x
  let quantities : PerQuantity QuantityRec := ⟨i.ta.after, i.ts.after, i.h.after, i.w.after, i.v.after⟩
  let wet := x.wetFlag w.wet
  let gusts := gustsAfter x i.w w.gusts
  let moved c := (w.conditions.get c).move (s.image.conditions.get c) s.image.staleClear
    (severity s.image.wetBonus quantities wet gusts c)
  { w with
    pendingSample := none
    quantities := quantities
    wet := wet
    gusts := gusts
    conditions := ⟨moved .ice, moved .wind, moved .fog⟩
    stats := w.stats.gather quantities gusts (allQuantities.countP (fun q => (x.fields.get q).isNone))
      (allQuantities.countP (fun q => (i.get q).suspect)) x.clampedCount }

/-- The sample work with the sample of this pulse (stages 1 to 8). The ninth stage is REPORT_TIMER_EXPIRY, whose timer
the pulse has left due (log 17). -/
def State.workSample (x : Sample) (s : State) : State :=
  let i := s.intakes x
  let before := s.weather.conditions
  let after := s.weatherAfter x
  let s := s.tallies .fieldsClamped x.clampedCount
  let s := s.tallies .fieldsMissing (allQuantities.countP (fun q => (x.fields.get q).isNone))
  let s := s.tallies .fieldsSuspect (allQuantities.countP (fun q => (i.get q).suspect))
  let s := s.staleEntries (allQuantities.countP (fun q => (i.get q).staled))
  (s.modWeather (fun _ => after)).announce before

/-- The station does sample work (R161). -/
def State.sampling (s : State) : Bool := s.inService && s.image.roles.weather == .station

/-- The sample work of a sample pulse (R160, R161). -/
def State.sampleWork (s : State) : State :=
  if s.sampling then
    match s.weather.pendingSample with
    | some body => (s.tally .samplesTaken).workSample (readSample body)
    | none => (s.tally .samplesAbsent).workSample Sample.allMissing
  else s

/-! ## Single transitions of the stages (log 15) -/

/-- STALE_LIMIT_REACHED: the intake of a missing field at which the missing run reaches the stale limit (R164). -/
def State.staleLimitReached (q : Quantity) (s : State) : State :=
  let i := (s.weather.quantities.get q).missed s.image.staleLimit
  if s.sampling && i.staled then
    let s := s.modWeather (fun w => { w with
      quantities := w.quantities.set q i.after
      gusts := if q = .w then [] else w.gusts
      stats := { w.stats with missing := satAdd w.stats.missing 1 } })
    (s.tally .fieldsMissing).staleEntries 1
  else s

/-- The record of a condition takes a new value, and a change of level or flag is announced. -/
def State.setCondition (c : Condition) (r : ConditionRec) (s : State) : State :=
  (s.modWeather (fun w => { w with conditions := w.conditions.set c r })).announce s.weather.conditions

/-- The run of the level machine on the last severity, of a VALID condition. -/
def State.levelRun (c : Condition) (s : State) : Option ConditionRec :=
  let r := s.weather.conditions.get c
  match r.flag, r.severity with
  | .valid, some sev => some (r.machine (s.image.conditions.get c) sev)
  | _, _ => none

/-- LEVEL_RISE: the up count reaches P_up (R169). -/
def State.levelRise (c : Condition) (s : State) : State :=
  match s.levelRun c with
  | some r => if s.sampling && decide ((s.weather.conditions.get c).level < r.level) then s.setCondition c r else s
  | none => s

/-- LEVEL_FALL: the down count reaches P_down (R169). -/
def State.levelFall (c : Condition) (s : State) : State :=
  match s.levelRun c with
  | some r => if s.sampling && decide (r.level < (s.weather.conditions.get c).level) then s.setCondition c r else s
  | none => s

/-- STALE_CLEAR: the held count reaches the stale-clear limit (R168). -/
def State.staleClears (c : Condition) (s : State) : State :=
  let r := s.weather.conditions.get c
  let after := r.move (s.image.conditions.get c) s.image.staleClear none
  if s.sampling && r.flag == .held && after.flag == .unknown then s.setCondition c after else s

/-! ## SAMPLE messages (R160) -/

/-- A SAMPLE handed to the unit at a STATION. -/
def State.takeSample (body : List Byte) (s : State) : State :=
  if body.length ≠ 12 then s.tally .sampleBad
  else
    let s' := s.modWeather (fun w => { w with pendingSample := some body })
    if s.weather.pendingSample.isSome then
      (s'.modWeather (fun w => { w with
        stats := { w.stats with superseded := satAdd w.stats.superseded 1 } })).tally .samplesSuperseded
    else s'

/-! ## Reports (R172, R83) -/

/-- A statistic's two bytes, 0 where it is absent (R200). -/
def statBytes (x : Option Int) : List Byte := intBytes (x.getD 0)

/-- The WEATHER report (13.2). -/
def State.reportPayload (s : State) : List Byte :=
  let t := s.weather.stats
  let w := s.weather.quantities.w.mean
  let bit (i : Nat) (absent : Bool) : Nat := if absent then 2 ^ i else 0
  natBytes t.samples ++ statBytes t.taMin ++ statBytes t.taMax ++ statBytes t.tsMin ++ statBytes t.tsMax ++ statBytes w ++
    statBytes t.gustMax ++ statBytes t.visMin ++ natBytes t.missing ++ natBytes t.suspect ++ natBytes t.clamped ++
    natBytes t.superseded ++ s.ownLevels.toList.map levelByte ++
    [BitVec.ofNat 8 (bit 0 t.taMin.isNone + bit 1 t.tsMin.isNone + bit 2 w.isNone + bit 3 t.gustMax.isNone +
      bit 4 t.visMin.isNone)]

/-- A WEATHER report is placed; with no cell the oldest waiting report is shed and its cell reused, or the new report is
skipped when none waits (R83). The new report takes the place of the shed one in one change of the queues, so that the local
ordinary queues do not count as empty between the two where no other frame waits (DESIGN CHOICE, log 65). -/
def State.placeReport (dest : Addr) (payload : List Byte) (s : State) : State :=
  match s.place .weatherOut .weather dest false 0 payload with
  | (true, s) => s.tally .reportsSent
  | (false, s) =>
    match s.queues.localWeather with
    | [] => s.tally .ordinarySkipped
    | oldest :: rest =>
      let f := s.makeFrame .weather dest false 0 (s.seqs.get .weather) payload
      ((s.modSeqs (Seqs.next .weather)).modQueues (fun q => { q with
        localWeather := rest ++ [{ frame := f, cell := oldest.cell, user := .weatherOut }] })).tally .weatherShed

/-- A report at an expiry of the report timer (R172). The statistics are cleared in every case (R171). -/
def State.makeReport (s : State) : State :=
  let cleared (s : State) : State := s.modWeather (fun w => { w with stats := {} })
  if s.weatherHome = 0 then cleared (s.tally .reportNoHome)
  else cleared (s.placeReport s.weatherHome s.reportPayload)

/-! ## The weather home (R173, R174) -/

/-- A REPORT or LEVELS message in a RECEIVE cell, with the frame's source and sequence and the given bytes. -/
def copiedMessage (kind : Byte) (f : Frame) (bytes : List Byte) (n : Nat) : Message :=
  { kind := kind, body := [addrByte f.source] ++ wordBytes f.seq ++ bytes, holder := .cell .receive n }

/-- A WEATHER frame at the copy step of a HOME: whether it is taken. -/
def State.weatherCopy (f : Frame) (s : State) : Bool × State :=
  if f.payload.length ≠ 28 then (false, s.tally .weatherBad)
  else match s.requestCell .receive with
    | (none, s) => (false, s.tally .homeNoCell)
    | (some n, s) => (true, (s.queueMessage .weather (copiedMessage kindReport f f.payload n)).tally .reportsOut)

/-- A CONDITION frame offered to the Weather Unit of a HOME: whether it is taken. LEVELS holds its levels and flags with the
spare bits of each level byte 0 (R174, R200; log 48). -/
def State.homeConditionCopy (f : Frame) (s : State) : Bool × State :=
  match readCondition f.payload with
  | none => (false, s.tally .conditionBad)
  | some levels => match s.requestCell .receive with
    | (none, s) => (false, s.tally .homeNoCell)
    | (some n, s) => (true, (s.queueMessage .weather (copiedMessage kindLevels f (levels.toList.map levelByte) n)).tally .levelsOut)

/-! ## The end of a service restart (R175) -/

/-- REPORT and LEVELS messages. -/
def Message.homeward (m : Message) : Bool := m.kind == kindReport || m.kind == kindLevels

/-- The report timer as a start leaves it (R172). -/
def Image.reportTimer (i : Image) : Timer :=
  if i.roles.weather = .station then Timer.armRepeating i.reportInterval else Timer.stopped

/-- The Weather Unit's restart state, with the new image in force. Of the announcement, the own-level notice is met by the
Sign Unit's own restart, which recomputes the zone levels after this (R189; log 6). -/
def State.restartWeather (s : State) : State :=
  let before := s.weather.conditions
  let s := s.dropClass2 (fun h => h.frame.kind == .condition)
  let s := s.modWeather (fun _ => { report := s.image.reportTimer })
  let s := if s.image.roles.weather = .home then s else s.withdrawMessages .weather Message.homeward
  s.announceWith id before

end Sys2Proof.Machine
end

