-- ==== Sys2Proof/Machine/Toll.lean ====
section
/-! DEFINITION. The Toll Journal and the Collector Unit (chapter 9), and the return list's outcomes (4.5). -/

namespace Sys2Proof.Machine

/-! ## Notices (R144) -/

/-- Notices waiting in the TOLL link's output queue: the places held in the notice store. -/
def State.noticesHeld (s : State) : Nat := (s.link .toll).queue.countP (fun m => m.holder == .notice)

/-- A notice is made, or dropped when the store is full. -/
def State.makeNotice (kind : Byte) (body : List Byte) (s : State) : State :=
  if s.noticesHeld < Config.noticePlaces then s.queueMessage .toll { kind := kind, body := body, holder := .notice }
  else s.tally .noticesDropped

/-- The reasons of REJECTED (13.4). -/
def reasonLength : Byte := 1
def reasonFull : Byte := 2

def State.reject (t : BitVec 32) (reason : Byte) (s : State) : State :=
  s.makeNotice kindRejected (tagBytes t ++ [reason])

/-! ## Intake (R143, R145) -/

/-- The first value from `w` on that no held entry has (R143). -/
def freshSeq (held : List Word) : Nat → Word → Word
  | 0, w => w
  | n + 1, w => if held.contains w then freshSeq held n (w + 1) else w

/-- The sequence the next entry takes. -/
def Journal.nextSeq (j : Journal) : Word := freshSeq (j.entries.map (·.seq)) (j.entries.length + 1) j.seq

/-- A RECORD handed to the journal. -/
def State.takeRecord (body : List Byte) (s : State) : State :=
  let t := readerTag body
  if body.length < 16 ∨ 200 < body.length then (s.reject t reasonLength).tally .recordsRejected
  else if s.journal.entries.any (fun e => e.readerTag == t) then s.tally .tagsRepeated
  else if Config.journalPlaces ≤ s.journal.entries.length then (s.reject t reasonFull).tally .recordsFull
  else match s.requestCell .journal with
    | (none, s) => (s.reject t reasonFull).tally .recordsFull
    | (some n, s) =>
      (s.modJournal (fun j => { j with
        seq := j.nextSeq + 1
        entries := j.entries ++ [{ seq := j.nextSeq, readerTag := t, record := body, cell := n }] })).tally .recordsTaken

/-! ## The send pass (R146, R147) -/

/-- A WAITING entry is eligible while its backoff timer is not running (R145). -/
def JournalEntry.eligible (e : JournalEntry) : Bool := e.state == .waiting && !e.backoff.running

/-- The candidate of a send pass: the entry of a due park turn, or else the oldest eligible WAITING entry. -/
def Journal.candidate (j : Journal) : Option JournalEntry :=
  match j.due with
  | some q => j.entries.find? (fun e => e.seq == q)
  | none => j.entries.find? JournalEntry.eligible

/-- The journal with the entry of a sequence changed. -/
def Journal.modEntry (q : Word) (f : JournalEntry → JournalEntry) (j : Journal) : Journal :=
  { j with entries := j.entries.map (fun e => if e.seq = q then f e else e) }

/-- The tag of an entry's next attempt: the attempt count mod 256. -/
def JournalEntry.tag (e : JournalEntry) : Byte := BitVec.ofNat 8 e.attempts

/-- An entry once an attempt has been sent. -/
def JournalEntry.sent (parkTurn : Bool) (e : JournalEntry) : JournalEntry :=
  { e with state := .inFlight, attempts := min (e.attempts + 1) 65535, parkTurn := parkTurn }

/-- The conditions of R146 on the part, apart from the candidate. -/
def State.maySend (s : State) : Bool :=
  s.inService && s.image.roles.toll == .reader &&
    decide ((s.journal.entries.countP (fun e => e.state == .inFlight)) < Config.journalInFlight) && s.tollHome != 0

/-- One attempt: the return list entry is registered and the TOLL frame placed out of the entry's cell. -/
def State.attempt (e : JournalEntry) (s : State) : State :=
  let f := s.makeFrame .toll s.tollHome false e.tag e.seq e.record
  let turn := s.journal.due == some e.seq
  (((s.register .toll e.seq e.tag).modJournal (fun j =>
    { (j.modEntry e.seq (JournalEntry.sent turn)) with due := if turn then none else j.due })).modQueues
      (Queues.joinLocal { frame := f, cell := e.cell, user := .journal })).tally .attempts

/-- A send pass of at most `n` attempts. -/
def State.sendSome : Nat → State → State
  | 0, s => s
  | n + 1, s =>
    if s.maySend then
      match s.journal.candidate with
      | none => s
      | some e =>
        if canRegister .toll e.seq e.tag s.returns then State.sendSome n (s.attempt e) else s
    else s

/-- SEND_PASS: fewer than 4 entries may be in flight, so a pass makes at most 4 attempts. -/
def State.sendPass (s : State) : State := State.sendSome Config.journalInFlight s

/-- The park timer expires (R147). -/
def State.parkExpiry (s : State) : State :=
  s.modJournal (fun j => { j with
    park := j.park.take
    due := match j.due with
      | some q => some q
      | none => (j.entries.find? (fun e => e.state == .parked)).map (·.seq) })

/-- The entry's backoff timer expires, and it is eligible (R149). -/
def State.backoffExpiry (q : Word) (s : State) : State :=
  s.modJournal (Journal.modEntry q (fun e => { e with backoff := e.backoff.take }))

/-! ## Outcomes (R148 to R151) -/

/-- TAKEN or PARTIAL confirms the entry (R148). -/
def State.confirm (e : JournalEntry) (partly : Bool) (s : State) : State :=
  let s := s.modJournal (fun j => { j with entries := j.entries.filter (fun x => decide (x.seq ≠ e.seq)) })
  let s := (s.freeCell .journal e.cell).makeNotice kindDelivered (tagBytes e.readerTag)
  let s := s.tally .confirmed
  if partly then s.tally .partialSeen else s

/-- The entry becomes PARKED (R150). -/
def State.parkEntry (q : Word) (s : State) : State :=
  ((s.modJournal (Journal.modEntry q (fun e =>
    { e with state := .parked, parkTurn := false, backoff := Timer.stopped }))).tally .parkings).report .journalParked

/-- The entry goes back to WAITING (R149). -/
def State.retryEntry (e : JournalEntry) (backs : Bool) (s : State) : State :=
  (s.modJournal (Journal.modEntry e.seq (fun e =>
    { e with
      state := .waiting
      parkTurn := false
      backoff := if backs then Timer.arm (2 ^ min e.attempts 6) else Timer.stopped }))).tally
    (if backs then .backoffs else .resends)

/-- Whether an outcome other than TAKEN or PARTIAL parks the entry (R150). -/
def JournalEntry.parks (retryLimit : Nat) (e : JournalEntry) : Bool :=
  e.parkTurn || decide (max retryLimit 1 ≤ e.attempts)

/-- The return list gives the journal the outcome of an attempt. -/
def State.journalOutcome (q : Word) (o : FrameOutcome) (s : State) : State :=
  match s.journal.entries.find? (fun e => e.seq == q && e.state == .inFlight) with
  | none => s
  | some e =>
    match o with
    | .taken => s.confirm e false
    | .partly => s.confirm e true
    | .refused | .untaken => if e.parks s.image.retryLimit then s.parkEntry q else s.retryEntry e true
    | .damaged | .lost => if e.parks s.image.retryLimit then s.parkEntry q else s.retryEntry e false

/-- An entry that a release finds (R151). -/
def JournalEntry.releasable (e : JournalEntry) : Bool := e.state == .parked || (e.state == .inFlight && e.parkTurn)

/-- An entry as a release leaves it. -/
def JournalEntry.released (e : JournalEntry) : JournalEntry :=
  match e.state with
  | .parked => { e with state := .waiting, attempts := 0, backoff := Timer.stopped }
  | .inFlight => if e.parkTurn then { e with parkTurn := false, attempts := 1 } else e
  | .waiting => e

/-- A state-change notice to the Toll Journal (R95, R151). -/
def State.tollPeerNotice (a : Addr) (before after : PeerState) (s : State) : State :=
  if s.image.roles.toll ≠ .none ∧ before ≠ .present ∧ after = .present ∧
      (a = s.image.tollPrimary ∨ a = s.image.tollAlternate) then
    let s' := s.modJournal (fun j => { j with entries := j.entries.map JournalEntry.released, due := none })
    if s.journal.entries.any JournalEntry.releasable then s'.tally .parkReleases else s'
  else s

/-! ## The return list's outcomes (R71 to R73) -/

/-- The outcome that a stripped frame's marks give (R71). -/
def Frame.outcome (f : Frame) : FrameOutcome :=
  if f.damaged then .damaged
  else match f.taken, f.refused with
    | true, true => .partly
    | true, false => .taken
    | false, true => .refused
    | false, false => .untaken

/-- The owner is given an outcome: the Toll Journal for TOLL, the sign centre for SIGN (R69, R188). -/
def State.giveOutcome (e : ReturnEntry) (o : FrameOutcome) (s : State) : State :=
  match e.kind with
  | .toll => s.journalOutcome e.seq o
  | .sign => s.makeOutcome e.tag o.code

/-- An entry is resolved: it is removed and its owner told, or in RE_READING it turns HELD at the end of the order of
resolution (R71 to R73). -/
def State.resolve (e : ReturnEntry) (o : FrameOutcome) (s : State) : State :=
  let others (l : List ReturnEntry) := l.filter (fun x => !x.isKey e.kind e.seq e.tag)
  if s.start = .reReading then
    s.modReturns (fun l => others l ++ [{ e with phase := .held o, deadline := Timer.stopped }])
  else (s.modReturns others).giveOutcome e o

/-- The return list entry with a key in phase AWAITING. -/
def State.awaiting (k : ReturnKind) (seq : Word) (tag : Byte) (s : State) : Option ReturnEntry :=
  s.returns.find? (fun e => e.isKey k seq tag && e.phase == .awaiting)

/-- A stripped TOLL or SIGN frame is looked up (R71, R72). -/
def State.lookUpReturn (k : ReturnKind) (f : Frame) (s : State) : State :=
  match s.awaiting k f.seq f.tag with
  | some e => s.resolve e f.outcome
  | none => s.tally .lateReturn

/-- A deadline expires (R72). -/
def State.returnLost (e : ReturnEntry) (s : State) : State := (s.tally .returnLost).resolve e .lost

/-- The RISE arbiter has launched a frame: its entry, if it has one, turns AWAITING with its deadline armed (R70). -/
def State.launchReturn (f : Frame) (s : State) : State :=
  let awaits (k : ReturnKind) : State := s.modReturns (fun l => l.map (fun e =>
    if e.isKey k f.seq f.tag && e.phase == .pending then
      { e with phase := .awaiting, deadline := Timer.arm s.image.returnTimeout }
    else e))
  match f.kind with
  | .toll => awaits .toll
  | .sign => awaits .sign
  | _ => s

/-- HELD outcomes are given in the order of resolution at the end of a restart (R73). -/
def State.giveHeld : List ReturnEntry → State → State
  | [], s => s
  | e :: t, s =>
    match e.phase with
    | .held o => State.giveHeld t (s.giveOutcome e o)
    | _ => State.giveHeld t s

/-- An IN_FLIGHT entry whose return list entry is removed at the restart (R152). -/
def JournalEntry.abandoned (e : JournalEntry) : JournalEntry :=
  if e.state = .inFlight then { e with state := if e.parkTurn then .parked else .waiting, parkTurn := false } else e

/-- Whether an entry is HELD. -/
def ReturnEntry.isHeld (e : ReturnEntry) : Bool :=
  match e.phase with
  | .held _ => true
  | _ => false

/-- The alert is reported once for each of `n` entries that become PARKED. -/
def State.parkedAlerts : Nat → State → State
  | 0, s => s
  | n + 1, s => State.parkedAlerts n (s.report .journalParked)

/-- The entries that the removal of return list entries takes out of IN_FLIGHT (R73, R152). -/
def State.abandonEntries (gone : List ReturnEntry) (s : State) : State :=
  let hit (e : JournalEntry) : Bool := gone.any (fun r => r.kind == .toll && r.seq == e.seq)
  let parking := s.journal.entries.countP (fun e => hit e && e.state == .inFlight && e.parkTurn)
  (s.modJournal (fun j => { j with
    entries := j.entries.map (fun e => if hit e then e.abandoned else e) })).parkedAlerts parking

/-- The Carriage Unit's work at the end of a restart (R73). The alert of an entry that becomes PARKED by R152 is reported,
and PARKINGS is not counted (log 31). -/
def State.restartReturns (s : State) : State :=
  let held := s.returns.filter ReturnEntry.isHeld
  let rest := s.returns.filter (fun e => !e.isHeld)
  let s := (s.modReturns (fun _ => rest)).giveHeld held
  ((s.abandonEntries rest).modReturns (fun _ => [])).tallies .returnAbandoned rest.length

/-! ## The journal's restart state (R152) -/

/-- The journal's restart state, steps 1 to 4; the send pass of step 5 is made when RUNNING resumes. -/
def State.restartJournal (s : State) : State :=
  (s.modQueues (fun q => { q with localToll := [] })).modJournal (fun j => { j with
    entries := j.entries.map (fun e => { e with backoff := Timer.stopped })
    park := Timer.armRepeating s.image.parkInterval
    due := none })

/-! ## The collector (R154 to R158) -/

def State.source (s : State) (a : Addr) : Source := s.collector.sources.get {} a

/-- What R155 decides. -/
inductive TagDecision where
  | accept | acceptUnverified | duplicate
  deriving DecidableEq, Repr

/-- The window after the highest tag has risen by `by_` (R156). -/
def windowShift (window : BitVec 32) (by_ : Nat) : BitVec 32 :=
  (window <<< by_) ||| (if by_ ≤ 32 then (1 : BitVec 32) <<< (by_ - 1) else 0)

/-- An accept while FRESH: the count rises, and the accept that brings it to 32 settles the entry (R155). -/
def Source.accepted (e : Source) : Source :=
  if e.state = .fresh then
    { e with
      accepts := e.accepts + 1
      state := if Config.settleAccepts ≤ e.accepts + 1 then .settled else .fresh }
  else e

/-- The tag decision with the entry it leaves (R155). -/
def Source.decideTag (t : BitVec 32) (e : Source) : TagDecision × Source :=
  let verdict : TagDecision := if e.state = .fresh then .acceptUnverified else .accept
  if e.state = .empty then (.acceptUnverified, { state := .fresh, highest := t, window := 0, accepts := 1 })
  else if e.highest.toNat < t.toNat then
    (verdict, Source.accepted { e with
      highest := t, window := windowShift e.window (t.toNat - e.highest.toNat) })
  else
    let d := e.highest.toNat - t.toNat
    if d = 0 then (.duplicate, e)
    else if 32 < d then (.acceptUnverified, e.accepted)
    else if e.window.getLsbD (d - 1) then (.duplicate, e)
    else (verdict, Source.accepted { e with window := e.window ||| ((1 : BitVec 32) <<< (d - 1)) })

/-- The kind of COLLECTED (13.4). -/
def collectedFlags (unverified corrected : Bool) : Byte :=
  BitVec.ofNat 8 ((if unverified then 1 else 0) + (if corrected then 2 else 0))

/-- The COLLECTED message of an accepted record in its RECEIVE cell (R157). -/
def collectedMessage (h : Held) (unverified : Bool) (n : Nat) : Message :=
  { kind := kindCollected
    body := [addrByte h.frame.source] ++ h.frame.payload ++
      [collectedFlags unverified h.corrected, BitVec.ofNat 8 h.frame.hops, h.frame.tag]
    holder := .cell .receive n }

/-- A TOLL frame at the copy step of a COLLECTOR: whether it is taken (R154, R157). -/
def State.tollCopy (h : Held) (s : State) : Bool × State :=
  let f := h.frame
  if f.group ∨ f.dest ≠ s.image.address ∨ f.payload.length < 16 ∨ 200 < f.payload.length then (false, s.tally .tollBad)
  else match s.requestCell .receive with
    | (none, s) => (false, s.tally .collectNoCell)
    | (some n, s) =>
      let (d, e) := (s.source f.source).decideTag (readerTag f.payload)
      let s := s.modCollector (fun c => { c with sources := c.sources.put BitVec.toNat {} f.source e })
      match d with
      | .duplicate => (true, (s.freeCell .receive n).tally .tollDuplicate)
      | .accept => (true, (s.queueMessage .toll (collectedMessage h false n)).tally .tollAccepted)
      | .acceptUnverified =>
        (true, ((s.queueMessage .toll (collectedMessage h true n)).tally .tollAccepted).tally .tollUnverified)

/-- COLLECTED messages are kept by a restart that leaves the role COLLECTOR, and removed by any other (R158). -/
def State.restartCollector (s : State) : State :=
  if s.image.roles.toll = .collector then s
  else s.withdrawMessages .toll (fun m => m.kind == kindCollected)

end Sys2Proof.Machine
end

