-- ==== Sys2Proof/Machine/Phone.lean ====
section
/-! DEFINITION. The Phone Unit's roadside lines, and the voice sequences and playout slots of lines and console channels
(chapter 7). -/

namespace Sys2Proof.Machine

/-! ## Lines and the off-hook count (R107, R119) -/

/-- The telephone role is the given one and the station is in service. -/
def State.phoneAs (r : PhoneRole) (s : State) : Bool := s.inService && s.image.roles.phone == r

def State.line (s : State) (i : Fin 4) : Line := s.phone.lines.get {} i

/-- A line's number as a frame's tag. -/
def lineTag (i : Fin 4) : Byte := BitVec.ofNat 8 i.val

/-- The highway channel that serves a line: the one of its number (R104). -/
def lineChannel (i : Fin 4) : Fin 16 := ⟨i.val, Nat.lt_of_lt_of_le i.isLt (by decide)⟩

/-- A line past hook check: its state is neither IDLE nor HOOK_CHECK. -/
def Line.offHook (l : Line) : Bool := l.state != .idle && l.state != .hookCheck

/-- The off-hook count (R119). -/
def State.offHookCount (s : State) : Nat :=
  if s.image.roles.phone = .roadside then allFour.countP (fun i => (s.line i).offHook) else 0

/-! ## Playout slots (R122, R123) -/

def State.voice (s : State) (c : Place) : Voice := s.phone.voice.get {} c

def State.modVoice (c : Place) (f : Voice → Voice) (s : State) : State :=
  s.modPhone (fun p => { p with voice := p.voice.put Place.code {} c (f (p.voice.get {} c)) })

/-- A slot is made EMPTY (R123); its expected sequence, which means nothing until a frame is taken, becomes 0 (DESIGN
CHOICE, log 44). -/
def State.emptySlot (c : Place) (s : State) : State := s.modVoice c (fun v => { v with slot := {} })

/-- A frame's 16 samples, oldest first (R120). -/
def readSamples (payload : List Byte) : List Word := (List.range 16).map (fun i => wordAt payload (2 * i))

/-- A VOICE payload. -/
def sampleBytes (samples : List Word) : List Byte := samples.flatMap wordBytes

/-- Whether a frame is held at a distance. -/
def Slot.holds (d : Nat) (t : Slot) : Bool := t.frames.any (fun e => e.1 == d)

/-- A frame with sequence `q` is placed; the counter tells of one that is discarded or resyncs the slot (R122). -/
def Slot.takeFrame (q : Word) (samples : List Word) (t : Slot) : Slot × Option StationCounter :=
  let d := (q - t.expected).toNat
  if t.state = .empty then ({ state := .filling, expected := q, frames := [(0, samples)] }, none)
  else if 32768 ≤ d then (t, some .voiceLate)
  else if 8 ≤ d then ({ state := .filling, expected := q, frames := [(0, samples)] }, some .voiceResync)
  else if t.holds d then (t, some .voiceDuplicate)
  else
    let frames := t.frames.put id [] d samples
    ({ t with frames := frames, state := if 2 ≤ frames.length then .playing else t.state }, none)

/-- Zero samples. -/
def silence : List Word := List.replicate 16 0

/-- A sample divided by 2, rounded toward zero. -/
def halve (x : Word) : Word := x.sdiv 2

/-- What a concealed period gives: the last frame, the last frame halved, then silence (R123). -/
def Slot.concealment (misses : Nat) (last : Option (List Word)) : List Word :=
  match last with
  | none => silence
  | some x => if misses = 1 then x else if misses = 2 then x.map halve else silence

/-- The samples a slot gives at the end of a period, the slot after it, and whether the period was concealed (R123). -/
def Slot.play (t : Slot) : List Word × Slot × Bool :=
  match t.state with
  | .empty | .filling => (silence, t, false)
  | .playing =>
    let later := (t.frames.filter (fun e => decide (e.1 ≠ 0))).map (fun e => (e.1 - 1, e.2))
    match t.frames.find? (fun e => e.1 == 0) with
    | some e => (e.2, { t with expected := t.expected + 1, frames := later, last := some e.2, misses := 0 }, false)
    | none =>
      let misses := min (t.misses + 1) 255
      (Slot.concealment misses t.last, { t with expected := t.expected + 1, frames := later, misses := misses }, true)

/-- A VOICE frame taken into the slot of a line or channel. -/
def State.takeVoice (c : Place) (f : Frame) (s : State) : State :=
  let (slot, counted) := (s.voice c).slot.takeFrame f.seq (readSamples f.payload)
  let s := s.modVoice c (fun v => { v with slot := slot })
  match counted with
  | some k => s.tally k
  | none => s

/-- A VOICE frame is built for a line or channel talking to a party; the voice sequence rises whether or not it is
placed (R120). -/
def State.buildVoice (c : Place) (dest : Addr) (tag : Byte) (samples : List Word) (s : State) : State :=
  (s.sendVoice dest tag (s.voice c).seq (sampleBytes samples)).modVoice c (fun v => { v with seq := v.seq + 1 })

/-! ## Changes of a line's state (R107 to R116) -/

/-- A line record on entering a state: the timers and fields that the state's rules start, stop or drop. -/
def Line.enter (st : LineState) (l : Line) : Line :=
  match st with
  | .idle => { offRun := l.offRun, onRun := l.onRun }
  | .hookCheck => { l with state := .hookCheck }
  | .requesting =>
    { l with
      state := .requesting, partner := none, position := none, channel := none
      supervision := Timer.stopped, retry := Timer.armRepeating Config.setupRetry }
  | .queued =>
    { l with state := .queued, channel := none, retry := Timer.stopped, supervision := Timer.arm Config.supervision }
  | .alerting =>
    { l with state := .alerting, position := none, retry := Timer.stopped, supervision := Timer.arm Config.supervision }
  | .talking =>
    { l with
      state := .talking, position := none, retry := Timer.stopped, ring := Timer.stopped
      supervision := Timer.arm Config.supervision }
  | .clearing =>
    { l with
      state := .clearing, position := none, channel := none, supervision := Timer.stopped
      clearing := Timer.armRepeating Config.clearing, repeats := 0 }
  | .ended => { l with state := .ended, position := none, channel := none, supervision := Timer.stopped }
  | .ringing =>
    { l with state := .ringing, supervision := Timer.arm Config.supervision, ring := Timer.arm Config.ringTimeout }

/-- A line takes a new record. Its slot is emptied when it enters or leaves TALKING, a call that connects is counted, and
a change of the off-hook count is given to the Sign Unit (R111, R119, R123). -/
def State.setLine (i : Fin 4) (new : Line) (s : State) : State :=
  let old := s.line i
  let s' := s.modPhone (fun p => { p with lines := p.lines.put Fin.val {} i new })
  let s' := if (old.state == .talking) = (new.state == .talking) then s' else s'.emptySlot (.line i)
  let s' := if old.state ≠ .talking ∧ new.state = .talking then s'.tally .callsConnected else s'
  s'.offHookNotice s.offHookCount s'.offHookCount

def State.modLine (i : Fin 4) (f : Line → Line) (s : State) : State := s.setLine i (f (s.line i))

/-- A CALL message about a line (R118). -/
def State.lineSends (i : Fin 4) (dest : Addr) (m : CallMessage) (s : State) : State := s.sendCall dest (lineTag i) m 0

/-- RELEASE to the line's partner. -/
def State.releasePartner (i : Fin 4) (s : State) : State :=
  match (s.line i).partner with
  | some a => s.lineSends i a .release
  | none => s

/-- RELEASE to the home choice, if it is not 0. -/
def State.releaseHome (i : Fin 4) (s : State) : State :=
  if s.phoneHome = 0 then s else s.lineSends i s.phoneHome .release

/-- SETUP to the home choice, if it is not 0 (R109). -/
def State.sendSetup (i : Fin 4) (s : State) : State :=
  if s.phoneHome = 0 then s else s.lineSends i s.phoneHome .setup

/-- The tone of a line in REQUESTING (R109). -/
def State.requestTone (l : Line) (s : State) : Tone :=
  if l.reestablishing then .unavailable
  else if s.phoneHome ≠ 0 ∧ s.peerPresent s.phoneHome then .calling
  else .unavailable

/-- The tone is worked out; taking UNAVAILABLE on entry or by a change from CALLING latches the alert (R109). -/
def State.setTone (i : Fin 4) (entering : Bool) (s : State) : State :=
  let l := s.line i
  let tone := s.requestTone l
  let s' := s.setLine i { l with tone := tone }
  if tone = .unavailable ∧ (entering ∨ l.tone = .calling) then s'.report .switchboardUnreachable else s'

/-- A line enters REQUESTING: tone, SETUP and retry (R109). -/
def State.beginRequest (i : Fin 4) (s : State) : State :=
  ((s.modLine i (Line.enter .requesting)).setTone i true).sendSetup i

/-- A line becomes IDLE. -/
def State.lineIdle (i : Fin 4) (s : State) : State := s.modLine i (Line.enter .idle)

/-- A line enters CLEARING and sends RELEASE (R115). -/
def State.lineClears (i : Fin 4) (s : State) : State := (s.modLine i (Line.enter .clearing)).releasePartner i

/-! ## Line events (R108 to R116) -/

/-- HOOK_CHECK_PASSED (R108). -/
def State.hookPassed (i : Fin 4) (s : State) : State := (s.tally .callsRequested).beginRequest i

/-- HANG_UP (R114). -/
def State.hungUp (i : Fin 4) (s : State) : State :=
  match (s.line i).state with
  | .requesting => (s.releaseHome i).lineIdle i
  | .queued | .alerting => (s.releasePartner i).lineIdle i
  | .talking => s.lineClears i
  | .ended => s.lineIdle i
  | .idle | .hookCheck | .clearing | .ringing => s

/-- The line states in which reaching 25 on-hook samples has an effect. -/
def LineState.hangsUp : LineState → Bool
  | .requesting | .queued | .alerting | .talking | .ended => true
  | .idle | .hookCheck | .clearing | .ringing => false

/-- LINE_ANSWER (R116). -/
def State.lineAnswers (i : Fin 4) (s : State) : State :=
  let s' := match (s.line i).partner with
    | some a => s.lineSends i a .ringAnswered
    | none => s
  s'.modLine i (Line.enter .talking)

/-- The ring ends without an answer: RELEASE to the partner, IDLE (R112, R116). -/
def State.ringEnds (i : Fin 4) (s : State) : State := (s.releasePartner i).lineIdle i

/-- SETUP_RETRY_EXPIRY (R109). -/
def State.retrySetup (i : Fin 4) (s : State) : State :=
  ((s.modLine i (fun l => { l with retry := l.retry.take })).sendSetup i).setTone i false

/-- LINE_SUPERVISION_EXPIRY (R112). -/
def State.lineLapses (i : Fin 4) (s : State) : State :=
  let s := s.tally .supervisionLapses
  match (s.line i).state with
  | .talking => (s.modLine i (fun l => { l with reestablishing := true })).beginRequest i
  | .ringing => s.ringEnds i
  | .queued | .alerting => s.beginRequest i
  | .idle | .hookCheck | .requesting | .clearing | .ended => s

/-- LINE_CLEARING_EXPIRY (R115). -/
def State.lineClearingRepeats (i : Fin 4) (s : State) : State :=
  let s := (s.modLine i (fun l => { l with clearing := l.clearing.take, repeats := l.repeats + 1 })).releasePartner i
  if Config.clearingRepeats ≤ (s.line i).repeats then s.lineIdle i else s

/-! ## CALL messages at a line (R110 to R117) -/

/-- A stray answer draws RELEASE (R111). -/
def State.lineStray (i : Fin 4) (source : Addr) (s : State) : State :=
  (s.lineSends i source .release).tally .callStray

/-- A line takes ACCEPT, QUEUED or CONNECT: `to_` is the state it names and `note` stores the channel or position
(R111). -/
def State.lineAnswered (i : Fin 4) (source : Addr) (to_ : LineState) (note : Line → Line) (s : State) : State :=
  let l := s.line i
  let takes : State := s.modLine i (fun l => note { (Line.enter to_ l) with partner := some source })
  match l.state with
  | .requesting => takes
  | .queued | .alerting => if l.partner = some source then takes else s.lineStray i source
  | .talking => if l.partner = some source then s else s.lineStray i source
  | .idle | .hookCheck | .ended => s.lineStray i source
  | .clearing | .ringing => s.tally .callStray

/-- A line takes RELEASE, having answered it (R113). -/
def State.lineReleased (i : Fin 4) (source : Addr) (s : State) : State :=
  let s := s.lineSends i source .released
  let l := s.line i
  if l.partner = some source then
    match l.state with
    | .queued | .alerting | .talking => s.modLine i (Line.enter .ended)
    | .clearing | .ringing => s.lineIdle i
    | .idle | .hookCheck | .requesting | .ended => s
  else s

/-- A line takes RELEASED (R113). -/
def State.lineReleaseAnswered (i : Fin 4) (source : Addr) (s : State) : State :=
  let l := s.line i
  if l.state = .clearing ∧ l.partner = some source then s.lineIdle i else s

/-- Whether a held frame is a SETUP of this line. -/
def Held.isSetup (i : Fin 4) (h : Held) : Bool :=
  h.frame.kind == .call && h.frame.tag == lineTag i && byteAt h.frame.payload 0 == BitVec.ofNat 8 CallMessage.setup.code

/-- A line takes RING (R116). -/
def State.lineRung (i : Fin 4) (source : Addr) (s : State) : State :=
  let l := s.line i
  match l.state with
  | .idle =>
    if s.phone.inStep then
      (s.modLine i (fun l => { (Line.enter .ringing l) with partner := some source })).lineSends i source .ringAck
    else s.lineSends i source .lineBusy
  | .hookCheck | .requesting =>
    ((s.modLine i (fun l => { (Line.enter .talking l) with partner := some source })).lineSends i source
      .ringAnswered).dropUrgent (Held.isSetup i)
  | .ringing => s.lineSends i source (if l.partner = some source then .ringAck else .lineBusy)
  | .queued | .alerting | .talking | .clearing | .ended => s.lineSends i source .lineBusy

/-- The states that run the supervision timer (R112). -/
def LineState.supervised : LineState → Bool
  | .queued | .alerting | .talking | .ringing => true
  | .idle | .hookCheck | .requesting | .clearing | .ended => false

/-- The supervision timer is armed again by a frame from the partner (R112). -/
def State.lineHears (i : Fin 4) (source : Addr) (s : State) : State :=
  let l := s.line i
  if l.state.supervised && l.partner == some source then
    s.modLine i (fun l => { l with supervision := Timer.arm Config.supervision })
  else s

/-- A CALL message that the Phone Unit takes is given to the line (R110). -/
def State.lineMessage (i : Fin 4) (source : Addr) (m : CallMessage) (arg : Nat) (s : State) : State :=
  let s := s.lineHears i source
  match m with
  | .accept => s.lineAnswered i source .alerting (fun l => { l with channel := some arg })
  | .queued => s.lineAnswered i source .queued (fun l => { l with position := some arg })
  | .connect => s.lineAnswered i source .talking id
  | .release => s.lineReleased i source
  | .released => s.lineReleaseAnswered i source
  | .ring => s.lineRung i source
  | .setup | .ringAck | .lineBusy | .ringAnswered => s

/-- The argument that R110 asks of a message from a switchboard; false for a message that is not one of its. -/
def CallMessage.fromSwitchboard (m : CallMessage) (arg : Nat) : Bool :=
  match m with
  | .accept => decide (arg ≤ 15)
  | .queued => decide (1 ≤ arg ∧ arg ≤ 32)
  | .connect | .release | .released | .ring => true
  | .setup | .ringAck | .lineBusy | .ringAnswered => false

/-- A frame addressed directly to this station (R59). -/
def State.direct (f : Frame) (s : State) : Bool := !f.group && f.dest == s.image.address && f.dest != 0

/-- The line, message and argument of a CALL frame of two payload bytes. -/
def readCall (f : Frame) : Option (Fin 4 × CallMessage × Nat) :=
  if f.payload.length = 2 then
    match allFour.find? (fun i => lineTag i == f.tag), CallMessage.ofCode (byteAt f.payload 0).toNat with
    | some i, some m => some (i, m, (byteAt f.payload 1).toNat)
    | _, _ => none
  else none

/-- A CALL frame at the copy step of a ROADSIDE station: whether it is taken (R110). -/
def State.lineCallCopy (f : Frame) (s : State) : Bool × State :=
  match readCall f with
  | some (i, m, arg) =>
    if s.direct f && m.fromSwitchboard arg then (true, s.lineMessage i f.source m arg) else (false, s.tally .callBad)
  | none => (false, s.tally .callBad)

/-- A VOICE frame at the copy step of a ROADSIDE station: whether it is taken (R121). -/
def State.lineVoiceCopy (f : Frame) (s : State) : Bool × State :=
  match allFour.find? (fun i => lineTag i == f.tag) with
  | some i =>
    let l := s.line i
    if s.direct f && f.payload.length == 32 && l.state == .talking && l.partner == some f.source then
      (true, (s.lineHears i f.source).takeVoice (.line i) f)
    else (false, s.tally .voiceRefused)
  | none => (false, s.tally .voiceRefused)

/-! ## Notices, highway loss, restart (R95, R105, R124) -/

/-- The tone is worked out again on each requesting line. -/
def State.retone : List (Fin 4) → State → State
  | [], s => s
  | i :: t, s => State.retone t (if (s.line i).state = .requesting then s.setTone i false else s)

/-- A state-change notice to the Phone Unit (R95, R109). -/
def State.phonePeerNotice (s : State) : State :=
  if s.image.roles.phone = .roadside then s.retone allFour else s

/-- One line at highway loss (R105). -/
def State.lineLost (i : Fin 4) (s : State) : State :=
  let s := match (s.line i).state with
    | .idle | .clearing => s
    | .hookCheck | .ended => s.lineIdle i
    | .requesting => (s.releaseHome i).lineIdle i
    | .queued | .alerting => (s.releasePartner i).lineIdle i
    | .talking => s.lineClears i
    | .ringing => s.ringEnds i
  s.modLine i (fun l => { l with offRun := 0, onRun := 0 })

/-- The lines at highway loss, line 0 first (DESIGN CHOICE, log 45: the manual gives no order of the lines). -/
def State.linesLost : List (Fin 4) → State → State
  | [], s => s
  | i :: t, s => State.linesLost t (s.lineLost i)

/-- The RELEASE that a restart sends for a line with a call (R124). -/
def State.restartRelease (i : Fin 4) (s : State) : State :=
  match (s.line i).state with
  | .requesting => s.releaseHome i
  | .queued | .alerting | .talking | .clearing | .ringing => s.releasePartner i
  | .idle | .hookCheck | .ended => s

/-- The RELEASE frames of step 2, line 0 first (DESIGN CHOICE, log 45: the manual gives no order of the lines). -/
def State.restartReleases : List (Fin 4) → State → State
  | [], s => s
  | i :: t, s => State.restartReleases t (s.restartRelease i)

/-- A line as a restart leaves it: IDLE with its runs, then HOOK_CHECK with off-hook run 1 if its off-hook run is above 0
(R124). Only a ROADSIDE station checks its hooks (log 13). -/
def Line.restarted (roadside : Bool) (l : Line) : Line :=
  let idle := Line.enter .idle l
  if roadside && decide (0 < l.offRun) then { idle with state := .hookCheck, offRun := 1 } else idle

/-- Every slot is made EMPTY; the voice sequences are kept (R120, R123). -/
def Phone.emptySlots (p : Phone) : Phone :=
  { p with voice := allPlaces.foldl (fun t c => t.put Place.code {} c { (t.get {} c) with slot := {} }) p.voice }

/-- The lines and slots as a restart leaves them. A station whose role is NONE from now on sends zeros on the highway at once
(R104). -/
def Phone.restarted (role : PhoneRole) (p : Phone) : Phone :=
  { p.emptySlots with
    lines := allFour.foldl (fun t i => t.put Fin.val {} i ((t.get {} i).restarted (role == .roadside))) p.lines
    out := if role = .none then [] else p.out }

/-- The Phone Unit's restart state (R124). The fall of the off-hook count is taken with the Sign Unit's restart
(R189). -/
def State.restartPhone (s : State) : State :=
  let s := s.dropUrgent (fun h => h.frame.kind == .call || h.frame.kind == .voice)
  let s := s.restartReleases allFour
  s.modPhone (Phone.restarted s.image.roles.phone)

end Sys2Proof.Machine
end

