-- ==== Sys2Proof/Machine/Switchboard.lean ====
section
/-! DEFINITION. The Switchboard Unit (chapter 8): the call table, the waiting list, calls from the roadside, the console
commands and their timers. -/

namespace Sys2Proof.Machine

/-! ## The call table (R127) -/

def State.channel (s : State) (c : Fin 16) : Channel := s.switchboard.channels.get {} c

/-- The states in which a channel holds its party. -/
def ChannelState.holds : ChannelState → Bool
  | .offered | .talking | .callingBack | .clearing => true
  | .closed | .free => false

/-- The party a channel is talking to, as the Phone Unit is told (R138). -/
def Channel.talksTo (r : Channel) : Option Party := if r.state = .talking then r.party else none

/-- A channel record on entering a state: the timers and fields that the state's rules start, stop or drop. No VOICE frame is
built for it before the next period, unless a console command is what made it talk (`State.voiceNow`, R127). -/
def Channel.enter (st : ChannelState) (r : Channel) : Channel :=
  let bare : Channel :=
    { state := st, cleared := r.cleared, previous := r.previous, takenCmd := r.takenCmd, takenArg := r.takenArg }
  let held : Channel := { bare with party := r.party, arrival := r.arrival }
  match st with
  | .closed | .free => bare
  | .offered => { held with refresh := Timer.armRepeating Config.refresh }
  | .talking => { held with supervision := Timer.arm Config.supervision }
  | .callingBack =>
    { held with
      arrival := none, ring := Timer.armRepeating Config.callbackRing, supervision := Timer.arm Config.supervision }
  | .clearing => { held with clearing := Timer.armRepeating Config.clearing, repeats := 0 }

/-- A channel takes a new record; its slot is emptied when it begins or ends talking to a party (R123, R127). -/
def State.setChannel (c : Fin 16) (new : Channel) (s : State) : State :=
  let old := s.channel c
  let s' := s.modSwitchboard (fun b => { b with channels := b.channels.put Fin.val {} c new })
  if old.talksTo = new.talksTo then s' else s'.emptySlot (.channel c)

def State.modChannel (c : Fin 16) (f : Channel → Channel) (s : State) : State := s.setChannel c (f (s.channel c))

/-- A channel takes a party and its arrival number and enters a state. -/
def State.give (c : Fin 16) (st : ChannelState) (p : Party) (arrival : Option Word) (s : State) : State :=
  s.modChannel c (fun r => Channel.enter st { r with party := some p, arrival := arrival })

/-- The channel that holds a party. -/
def State.holderOf (p : Party) (s : State) : Option (Fin 16) :=
  allSixteen.find? (fun c => let r := s.channel c; r.state.holds && r.party == some p)

/-- The lowest-numbered FREE channel. -/
def State.freeChannel (s : State) : Option (Fin 16) := allSixteen.find? (fun c => (s.channel c).state == .free)

/-- A CALL message to a party (R138). -/
def State.tell (p : Party) (m : CallMessage) (arg : Nat) (s : State) : State := s.sendCall p.station (lineTag p.line) m arg

/-- A CALL message to the party a channel holds. -/
def State.tellChannel (c : Fin 16) (m : CallMessage) (arg : Nat) (s : State) : State :=
  match (s.channel c).party with
  | some p => s.tell p m arg
  | none => s

/-! ## The waiting list (R128) -/

/-- Arrival `a` is earlier than arrival `b`. -/
def earlier (a b : Word) : Bool := decide (1 ≤ (b - a).toNat) && decide ((b - a).toNat ≤ 32767)

/-- An entry takes the place its arrival number gives it: ahead of every entry that arrived after it. -/
def joinWaiting (w : Waiting) : List Waiting → List Waiting
  | [] => [w]
  | x :: t => if earlier w.arrival x.arrival then w :: x :: t else x :: joinWaiting w t

/-- The position of a party in a list, 1 for the head; 0 for a party not in it. -/
def positionOf (p : Party) (l : List Waiting) : Nat :=
  match l.findIdx? (fun w => w.party == p) with
  | some n => n + 1
  | none => 0

def State.modWaiting (f : List Waiting → List Waiting) (s : State) : State :=
  s.modSwitchboard (fun b => { b with waiting := f b.waiting })

/-- A party is in the waiting list. -/
def State.waits (p : Party) (s : State) : Bool := s.switchboard.waiting.any (fun w => w.party == p)

/-- QUEUED with a party's position. -/
def State.tellQueued (p : Party) (s : State) : State := s.tell p .queued (positionOf p s.switchboard.waiting)

/-- QUEUED is first sent to a call that has joined the list, and its refresh timer is armed (R137). -/
def State.queueCall (p : Party) (s : State) : State :=
  (s.tellQueued p).modWaiting (fun l => l.map (fun w =>
    if w.party = p then { w with refresh := Timer.armRepeating Config.refresh } else w))

/-- An entry leaves the list. -/
def State.leaveWaiting (p : Party) (s : State) : State := s.modWaiting (fun l => l.filter (fun w => w.party != p))

/-! ## Promotion (R129) -/

/-- The head entry goes to a FREE channel. -/
def State.offer (c : Fin 16) (w : Waiting) (s : State) : State :=
  (((s.modWaiting (List.drop 1)).give c .offered w.party (some w.arrival)).tell w.party .accept c.val).tally .callsOffered

/-- Promotion, of at most `n` calls. -/
def State.promoteSome : Nat → State → State
  | 0, s => s
  | n + 1, s =>
    match s.switchboard.waiting, s.freeChannel with
    | w :: _, some c => State.promoteSome n (s.offer c w)
    | _, _ => s

/-- Promotion: there are sixteen channels, and each offer takes a FREE one. -/
def State.promote (s : State) : State := s.promoteSome 16

/-- A channel becomes FREE, and promotion runs. -/
def State.channelFree (c : Fin 16) (s : State) : State := (s.modChannel c (Channel.enter .free)).promote

/-- A channel becomes FREE with its cleared flag set, and promotion runs (R134, R136). -/
def State.channelCleared (c : Fin 16) (s : State) : State :=
  (s.modChannel c (fun r => { (Channel.enter .free r) with cleared := true })).promote

/-! ## Calls from the roadside (R130, R131, R134, R136) -/

/-- The party of a call enters TALKING on a channel: CALLS_ANSWERED. -/
def State.channelTalks (c : Fin 16) (s : State) : State := (s.modChannel c (Channel.enter .talking)).tally .callsAnswered

/-- A SETUP that makes a new call: the call joins the list with the next arrival number (R131). -/
def State.newCall (p : Party) (s : State) : State :=
  (s.modSwitchboard (fun b => { b with
    waiting := b.waiting ++ [{ party := p, arrival := b.arrival }], arrival := b.arrival + 1 })).tally .setupsTaken

/-- A SETUP from a party that no channel holds and that does not wait. -/
def State.setupNew (p : Party) (s : State) : Bool × State :=
  if s.freeChannel.isSome then (true, (s.newCall p).promote)
  else if s.switchboard.waiting.length < Config.waitingPlaces then (true, (s.newCall p).queueCall p)
  else (false, s.tally .setupRefused)

/-- A SETUP: false when it is refused (R131). -/
def State.takeSetup (p : Party) (s : State) : Bool × State :=
  match s.holderOf p with
  | some c =>
    match (s.channel c).state with
    | .offered => (true, (s.tell p .accept c.val).tally .setupsRepeated)
    | .talking => (true, (s.tell p .connect 0).tally .setupsRepeated)
    | .callingBack => (true, (s.channelTalks c).tell p .connect 0)
    | .clearing | .closed | .free => (true, (s.tell p .release 0).tally .setupsRepeated)
  | none => if s.waits p then (true, (s.tellQueued p).tally .setupsRepeated) else s.setupNew p

/-- A RELEASE from a party: RELEASED is sent in every case (R134). -/
def State.partyReleases (p : Party) (s : State) : State :=
  let s := s.tell p .released 0
  match s.holderOf p with
  | some c => if (s.channel c).state = .clearing then s.channelFree c else s.channelCleared c
  | none => s.leaveWaiting p

/-- A RELEASED from a party (R134). -/
def State.partyReleased (p : Party) (s : State) : State :=
  match s.holderOf p with
  | some c => if (s.channel c).state = .clearing then s.channelFree c else s
  | none => s

/-- A message for which no channel is ringing draws RELEASE (R136). -/
def State.strayRing (p : Party) (s : State) : State := (s.tell p .release 0).tally .switchboardStray

/-- The state of the channel that holds a party. -/
def State.heldState (p : Party) (s : State) : Option ChannelState := (s.holderOf p).map (fun c => (s.channel c).state)

/-- RING_ACK (R136). -/
def State.takeRingAck (p : Party) (s : State) : State := if s.heldState p = some .callingBack then s else s.strayRing p

/-- RING_ANSWERED (R136). -/
def State.takeRingAnswered (p : Party) (s : State) : State :=
  match s.holderOf p with
  | some c =>
    match (s.channel c).state with
    | .callingBack => s.channelTalks c
    | .talking => s
    | .offered | .clearing | .closed | .free => s.strayRing p
  | none => s.strayRing p

/-- LINE_BUSY (R136). -/
def State.takeLineBusy (p : Party) (s : State) : State :=
  match s.holderOf p with
  | some c =>
    if (s.channel c).state = .callingBack then (s.tally .callbacksBusy).channelCleared c else s.tally .switchboardStray
  | none => s.tally .switchboardStray

/-- The supervision timer of a channel that holds the party in TALKING or CALLING_BACK is armed again (R130, R137). -/
def State.channelHears (p : Party) (s : State) : State :=
  match s.holderOf p with
  | some c =>
    match (s.channel c).state with
    | .talking | .callingBack => s.modChannel c (fun r => { r with supervision := Timer.arm Config.supervision })
    | .offered | .clearing | .closed | .free => s
  | none => s

/-- A message from a party, dealt with: false when it is refused after all. -/
def State.partyMessage (p : Party) (m : CallMessage) (s : State) : Bool × State :=
  match m with
  | .setup => s.takeSetup p
  | .release => (true, s.partyReleases p)
  | .released => (true, s.partyReleased p)
  | .ringAck => (true, s.takeRingAck p)
  | .lineBusy => (true, s.takeLineBusy p)
  | .ringAnswered => (true, s.takeRingAnswered p)
  | .accept | .queued | .connect | .ring => (false, s)

/-- The messages that a roadside station sends (R130). -/
def CallMessage.fromRoadside : CallMessage → Bool
  | .setup | .release | .released | .ringAck | .lineBusy | .ringAnswered => true
  | .accept | .queued | .connect | .ring => false

/-- A CALL frame at the copy step of a SWITCHBOARD station: whether it is taken (R130). -/
def State.switchCallCopy (f : Frame) (s : State) : Bool × State :=
  match readCall f with
  | some (line, m, _) =>
    if s.direct f && m.fromRoadside then
      let p : Party := { station := f.source, line := line }
      (s.channelHears p).partyMessage p m
    else (false, s.tally .switchboardCallBad)
  | none => (false, s.tally .switchboardCallBad)

/-- A VOICE frame at the copy step of a SWITCHBOARD station: whether it is taken (R121, R137). -/
def State.switchVoiceCopy (f : Frame) (s : State) : Bool × State :=
  match allFour.find? (fun i => lineTag i == f.tag) with
  | some line =>
    let p : Party := { station := f.source, line := line }
    match allSixteen.find? (fun c => (s.channel c).talksTo == some p) with
    | some c =>
      if s.direct f && f.payload.length == 32 then (true, (s.channelHears p).takeVoice (.channel c) f)
      else (false, s.tally .voiceRefused)
    | none => (false, s.tally .voiceRefused)
  | none => (false, s.tally .voiceRefused)

/-! ## Console commands (R132, R133, R135) -/

def State.consoleIgnored (s : State) : State := s.tally .consoleIgnored

/-- OPEN. -/
def State.consoleOpens (c : Fin 16) (s : State) : State :=
  if (s.channel c).state = .closed then s.channelFree c else s.consoleIgnored

/-- The call of an OFFERED channel goes back to the waiting list, the channel being CLOSED (R132). -/
def State.putBack (c : Fin 16) (s : State) : State :=
  let r := s.channel c
  let s := s.modChannel c (Channel.enter .closed)
  match r.party, r.arrival with
  | some p, some a => s.modWaiting (joinWaiting { party := p, arrival := a })
  | _, _ => s

/-- QUEUED is sent to a call put back, if it still waits. -/
def State.requeue (p : Option Party) (s : State) : State :=
  match p with
  | some p => if s.waits p then s.queueCall p else s
  | none => s

/-- CLOSE. -/
def State.consoleCloses (c : Fin 16) (s : State) : State :=
  let r := s.channel c
  match r.state with
  | .free => s.modChannel c (Channel.enter .closed)
  | .offered =>
    if s.switchboard.waiting.length < Config.waitingPlaces then ((s.putBack c).promote).requeue r.party
    else s.consoleIgnored
  | .closed | .talking | .callingBack | .clearing => s.consoleIgnored

/-- A console command has made a channel talk to a party: VOICE frames are built for it from the period in progress, the
next after the one at whose end the command was taken (R126, R127). -/
def State.voiceNow (c : Fin 16) (s : State) : State := s.modChannel c (fun r => { r with voicing := true })

/-- ANSWER. -/
def State.consoleAnswers (c : Fin 16) (s : State) : State :=
  if (s.channel c).state = .offered then ((s.channelTalks c).voiceNow c).tellChannel c .connect 0 else s.consoleIgnored

/-- A channel enters CLEARING and sends RELEASE to its party. -/
def State.channelClears (c : Fin 16) (s : State) : State :=
  (s.modChannel c (Channel.enter .clearing)).tellChannel c .release 0

/-- RELEASE. -/
def State.consoleReleases (c : Fin 16) (s : State) : State :=
  match (s.channel c).state with
  | .offered | .talking | .callingBack => s.channelClears c
  | .closed | .free | .clearing => s.consoleIgnored

/-- The party that a CALLBACK argument names. -/
def partyOfByte (b : Byte) : Party := { station := b.extractLsb' 2 6, line := ⟨(b.extractLsb' 0 2).toNat, by omega⟩ }

/-- A party as a byte: station in the high 6 bits, line in the low 2 bits (R126). -/
def Party.toByte (p : Party) : Byte := p.station ++ BitVec.ofNat 2 p.line.val

/-- The operator's channel takes over a call: TALKING with its party and arrival number, and CONNECT (R135). -/
def State.takeOver (c : Fin 16) (p : Party) (arrival : Option Word) (s : State) : State :=
  (((s.give c .talking p arrival).voiceNow c).tally .callsAnswered).tell p .connect 0

/-- CALLBACK with a party, on a FREE channel. -/
def State.callBack (c : Fin 16) (p : Party) (s : State) : State :=
  if p.station = 0 ∨ p.station = s.image.address then s.consoleIgnored
  else match s.holderOf p with
    | some o =>
      if (s.channel o).state = .offered then (s.takeOver c p (s.channel o).arrival).channelFree o else s.consoleIgnored
    | none =>
      match s.switchboard.waiting.find? (fun w => w.party == p) with
      | some w => (s.leaveWaiting p).takeOver c p (some w.arrival)
      | none => ((s.give c .callingBack p none).tally .callbacks).tell p .ring 0

/-- CALLBACK (R135). -/
def State.consoleCallsBack (c : Fin 16) (arg : Byte) (s : State) : State :=
  if (s.channel c).state = .free then s.callBack c (partyOfByte arg) else s.consoleIgnored

/-- No channel below `c` has a command taken and not yet carried out (R126). -/
def State.firstTaken (c : Fin 16) (s : State) : Bool :=
  allSixteen.all (fun d => decide (c.val ≤ d.val) || (s.channel d).takenCmd.isNone)

/-- Whether the console command of a channel is the next to be carried out (R126; log 14). -/
def State.consoleReady (c : Fin 16) (k : ConsoleCommand) (s : State) : Bool :=
  s.phoneAs .switchboard && (s.channel c).takenCmd == some k && s.firstTaken c

/-- The taken command of a channel is no longer to be carried out. -/
def State.consoleDone (c : Fin 16) (s : State) : State := s.modChannel c (fun r => { r with takenCmd := none })

/-! ## Timers (R133, R135, R137) -/

/-- OFFER_REFRESH_EXPIRY. -/
def State.offerRefresh (c : Fin 16) (s : State) : State :=
  (s.modChannel c (fun r => { r with refresh := r.refresh.take })).tellChannel c .accept c.val

/-- WAITING_REFRESH_EXPIRY. -/
def State.waitingRefresh (p : Party) (s : State) : State :=
  (s.modWaiting (fun l => l.map (fun w => if w.party = p then { w with refresh := w.refresh.take } else w))).tellQueued p

/-- CHANNEL_SUPERVISION_EXPIRY. -/
def State.channelLapses (c : Fin 16) (s : State) : State := (s.channelClears c).tally .channelLapses

/-- CALLBACK_RING_EXPIRY. -/
def State.callbackRings (c : Fin 16) (s : State) : State :=
  (s.modChannel c (fun r => { r with ring := r.ring.take })).tellChannel c .ring 0

/-- CHANNEL_CLEARING_EXPIRY. -/
def State.channelClearingRepeats (c : Fin 16) (s : State) : State :=
  let s := (s.modChannel c (fun r => { r with clearing := r.clearing.take, repeats := r.repeats + 1 })).tellChannel c
    .release 0
  if Config.clearingRepeats ≤ (s.channel c).repeats then s.channelFree c else s

/-! ## Highway loss and restart (R139, R140) -/

/-- One channel at highway loss. A call put back is sent QUEUED; promotion does not run, since every channel is being
closed (log 32). -/
def State.channelLost (c : Fin 16) (s : State) : State :=
  let r := s.channel c
  let s := match r.state with
    | .closed | .free | .talking | .clearing => s.modChannel c (Channel.enter .closed)
    | .offered =>
      if s.switchboard.waiting.length < Config.waitingPlaces then (s.putBack c).requeue r.party
      else s.modChannel c (Channel.enter .closed)
    | .callingBack => (s.tellChannel c .release 0).modChannel c (Channel.enter .closed)
  s.consoleDone c

def State.channelsLost : List (Fin 16) → State → State
  | [], s => s
  | c :: t, s => State.channelsLost t (s.channelLost c)

/-- RELEASE to the party of each channel that holds one, in the given order. -/
def State.releaseChannels : List (Fin 16) → State → State
  | [], s => s
  | c :: t, s => State.releaseChannels t (if (s.channel c).state.holds then s.tellChannel c .release 0 else s)

/-- RELEASE to each waiting call, head first. -/
def State.releaseWaiting : List Waiting → State → State
  | [], s => s
  | w :: t, s => State.releaseWaiting t (s.tell w.party .release 0)

/-- The Switchboard Unit's restart state: every channel CLOSED with nothing taken and previous octet 0x00, the list
empty, the arrival counter kept (R140). Its CALL frames have left the URGENT queue with those of the Phone Unit
(`State.restartPhone`). -/
def State.restartSwitchboard (s : State) : State :=
  let s := (s.releaseChannels allSixteen).releaseWaiting s.switchboard.waiting
  s.modSwitchboard (fun b => { arrival := b.arrival })

end Sys2Proof.Machine
end

