-- ==== Sys2Proof/Machine/Highway.lean ====
section
/-! DEFINITION. The phone highway (7.1, 8.1): signalling periods, hook samples, console octets, voice frames, playout and
highway loss. -/

namespace Sys2Proof.Machine

/-! ## Hook samples (R106, R108) -/

/-- A line record after one hook sample, with the moves between IDLE and HOOK_CHECK. `moves` is false while the line
machines take no events (R124). The sample that begins HOOK_CHECK counts as the first off-hook sample (R108; log 13). -/
def Line.sample (off moves : Bool) (l : Line) : Line :=
  let l : Line :=
    if off then { l with offRun := min (l.offRun + 1) 255, onRun := 0 }
    else { l with onRun := min (l.onRun + 1) 255, offRun := 0 }
  if moves then
    match l.state, off with
    | .idle, true => { l with state := .hookCheck, offRun := 1 }
    | .hookCheck, false => Line.enter .idle l
    | _, _ => l
  else l

/-- A line takes its hook sample from a command octet (R106). -/
def State.hookSample (i : Fin 4) (octet : Byte) (moves : Bool) (s : State) : State :=
  if octet = 0 then s.modLine i (Line.sample false moves)
  else if octet = 1 then s.modLine i (Line.sample true moves)
  else s.tally .hookBad

/-- What a channel carried in the period that ends. -/
def channelOf (channels : List HwChannel) (c : Fin 16) : HwChannel := channels.getD c.val {}

def State.hookSamples (channels : List HwChannel) (moves : Bool) : List (Fin 4) → State → State
  | [], s => s
  | i :: t, s =>
    State.hookSamples channels moves t (s.hookSample i (channelOf channels (lineChannel i)).cmd moves)

/-! ## Console octets (R126) -/

/-- A channel compares its octet with the previous one; a command that differs from it is taken (R126). -/
def Channel.octet (h : HwChannel) (r : Channel) : Channel :=
  let taken : Option ConsoleCommand := if h.cmd = r.previous then none else readConsole h.cmd
  match taken with
  | some k => { r with previous := h.cmd, takenCmd := some k, takenArg := h.arg }
  | none => { r with previous := h.cmd }

def State.consoleOctet (c : Fin 16) (h : HwChannel) (s : State) : State :=
  let s := s.modChannel c (Channel.octet h)
  if 5 < h.cmd.toNat then s.tally .consoleBad else s

def State.consoleOctets (channels : List HwChannel) : List (Fin 16) → State → State
  | [], s => s
  | c :: t, s => State.consoleOctets channels t (s.consoleOctet c (channelOf channels c))

/-! ## Voice frames (R120) -/

/-- A VOICE frame for a line in TALKING. -/
def State.lineVoiceFrame (channels : List HwChannel) (i : Fin 4) (s : State) : State :=
  let l := s.line i
  match l.state, l.partner with
  | .talking, some a => s.buildVoice (.line i) a (lineTag i) (channelOf channels (lineChannel i)).samples
  | _, _ => s

/-- A VOICE frame for a console channel talking to a party, from the period after the one in which it began (R127). -/
def State.channelVoiceFrame (channels : List HwChannel) (c : Fin 16) (s : State) : State :=
  match (s.channel c).talksTo, (s.channel c).voicing with
  | some p, true => s.buildVoice (.channel c) p.station (lineTag p.line) (channelOf channels c).samples
  | _, _ => s

/-- The VOICE frames of a period, line 0 first (DESIGN CHOICE, log 45: the manual gives no order of the lines). -/
def State.lineVoiceFrames (channels : List HwChannel) : List (Fin 4) → State → State
  | [], s => s
  | i :: t, s => State.lineVoiceFrames channels t (s.lineVoiceFrame channels i)

/-- The VOICE frames of a period, channel 0 first (DESIGN CHOICE, log 45). -/
def State.channelVoiceFrames (channels : List HwChannel) : List (Fin 16) → State → State
  | [], s => s
  | c :: t, s => State.channelVoiceFrames channels t (s.channelVoiceFrame channels c)

/-! ## What the part sends (R104, R106, R107, R123, R126) -/

/-- The ring octet of a line (R107). -/
def Line.ringOctet (l : Line) : Byte := if l.state = .ringing then 1 else 0

/-- The tone octet of a line (R106, R107). -/
def Line.toneOctet (l : Line) : Byte :=
  match l.state with
  | .idle | .hookCheck | .talking | .clearing | .ringing => 0
  | .requesting => match l.tone with
    | .calling => 1
    | .unavailable => 3
  | .queued => 2
  | .alerting => 1
  | .ended => 4

/-- The channel state codes (R126). -/
def ChannelState.code : ChannelState → Byte
  | .closed => 0
  | .free => 1
  | .offered => 2
  | .talking => 3
  | .callingBack => 4
  | .clearing => 5

/-- The code CLEARED, shown for one period (R126). -/
def codeCleared : Byte := 6

/-- The octets of a console channel. The cleared flag is shown, unless the codes are frozen by RE_READING, which shows the
code of the state even where CLEARED was being sent or the flag is set (R140; DESIGN CHOICE, log 54). -/
def Channel.octets (shows : Bool) (r : Channel) : Byte × Byte :=
  if shows && r.cleared then (codeCleared, 0)
  else (r.state.code, match r.state.holds, r.party with
    | true, some p => p.toByte
    | _, _ => 0)

/-- The slot of a place gives its samples for the next period (R123). -/
def State.playSlot (c : Place) (s : State) : List Word × State :=
  let (samples, slot, concealed) := (s.voice c).slot.play
  let s := s.modVoice c (fun v => { v with slot := slot })
  (samples, if concealed then s.tally .voiceConcealed else s)

def State.setOut (c : Fin 16) (h : HwChannel) (s : State) : State :=
  s.modPhone (fun p => { p with out := p.out.put Fin.val {} c h })

/-- A line's channel for the next period. -/
def State.lineOut (i : Fin 4) (s : State) : State :=
  let (samples, s) := s.playSlot (.line i)
  let l := s.line i
  s.setOut (lineChannel i) { cmd := l.ringOctet, arg := l.toneOctet, samples := samples }

/-- A channel as a new period begins: the cleared flag is cleared once shown (R126), and VOICE frames are built for a channel
that is TALKING now (R127). -/
def Channel.begins (shows : Bool) (r : Channel) : Channel :=
  { r with cleared := r.cleared && !shows, voicing := r.state == .talking }

/-- A console channel's octets and samples for the next period. The state shown is the one before the commands taken with
this marked frame are carried out, which their own rows do afterwards (DESIGN CHOICE, log 47). -/
def State.channelOut (c : Fin 16) (s : State) : State :=
  let shows := s.inService
  let (samples, s) := s.playSlot (.channel c)
  let r := s.channel c
  let (cmd, arg) := r.octets shows
  (s.setOut c { cmd := cmd, arg := arg, samples := samples }).modChannel c (Channel.begins shows)

def State.linesOut : List (Fin 4) → State → State
  | [], s => s
  | i :: t, s => State.linesOut t (s.lineOut i)

def State.channelsOut : List (Fin 16) → State → State
  | [], s => s
  | c :: t, s => State.channelsOut t (s.channelOut c)

/-- A new period begins: the octets and samples that the part sends in it. -/
def State.beginPeriod (s : State) : State :=
  match s.image.roles.phone with
  | .none => s.modPhone (fun p => { p with out := [] })
  | .roadside => (s.modPhone (fun p => { p with out := [] })).linesOut allFour
  | .switchboard => s.channelsOut allSixteen

/-- The octets and samples of a period that ends normally are taken: hook samples or console octets, and VOICE frames.
In RE_READING the hook runs alone go on (R124, R140). -/
def State.takePeriod (channels : List HwChannel) (s : State) : State :=
  match s.image.roles.phone with
  | .none => s
  | .roadside =>
    let s := s.hookSamples channels s.inService allFour
    if s.inService then s.lineVoiceFrames channels allFour else s
  | .switchboard =>
    if s.inService then (s.consoleOctets channels allSixteen).channelVoiceFrames channels allSixteen else s

/-! ## Marked frames and highway loss (R104, R105, R139) -/

/-- The highway is IN_STEP with its loss timer armed. -/
def Phone.marked (p : Phone) : Phone := { p with inStep := true, loss := Timer.arm Config.highwayLoss }

/-- The previous octets are 0x00 when the highway becomes IN_STEP after LOST (R126). -/
def Switchboard.forget (b : Switchboard) : Switchboard :=
  { b with channels := allSixteen.foldl (fun t c =>
      t.put Fin.val {} c { (t.get {} c) with previous := 0, takenCmd := none }) b.channels }

/-- A marked frame (R104). At the first after a loss the lines are as the loss left them: those still in CLEARING go on with
it (R105; DESIGN CHOICE, log 53). -/
def State.markedFrame (frames : Nat) (channels : List HwChannel) (s : State) : State :=
  if !s.phone.inStep then ((s.modPhone Phone.marked).modSwitchboard Switchboard.forget).beginPeriod
  else if frames = Config.periodFrames then ((s.modPhone Phone.marked).takePeriod channels).beginPeriod
  else ((s.modPhone Phone.marked).tally .highwaySlip).beginPeriod

/-- The part listens to the highway: it works, in neither TRANSPARENT nor a role of NONE (R104). At role
NONE marked frames change nothing (DESIGN CHOICE, log 60). -/
def State.hearsHighway (s : State) : Bool :=
  (s.start == .running || s.start == .reReading) && s.image.roles.phone != .none

/-- Every slot is emptied and nothing is sent (R123). Done at once where the highway becomes LOST, and so until the next marked
frame (DESIGN CHOICE, log 61). -/
def Phone.quiet (p : Phone) : Phone := { p.emptySlots with out := [] }

/-- HIGHWAY_LOSS_TIMER_EXPIRY (R104, R105, R139). Where a restart has taken the telephone role to NONE, no line or channel is
left to move (DESIGN CHOICE, log 60). -/
def State.highwayLost (s : State) : State :=
  let s := (s.modPhone (fun p => { p with inStep := false, loss := Timer.stopped })).tally .highwayLoss
  let s := match s.image.roles.phone with
    | .none => s
    | .roadside => s.linesLost allFour
    | .switchboard => s.channelsLost allSixteen
  s.modPhone Phone.quiet

end Sys2Proof.Machine
end

