-- ==== Sys2Proof/Machine/Peers.lean ====
section
/-! DEFINITION. The Peer Table (chapter 6): sightings, aging, notices, what PRESENCE and CONDITION frames leave, and the
station's own PRESENCE frame. -/

namespace Sys2Proof.Machine

/-! ## Notices (R95, R97) -/

/-- A state-change notice to the Phone Unit, the Toll Journal and the Sign Unit. -/
def State.stateNotice (a : Addr) (before after : PeerState) (s : State) : State :=
  ((s.phonePeerNotice).tollPeerNotice a before after).signPeerNotice a

/-- An entry takes a new value; a change of its state is notified, unless the notices are held by RE_READING (R95). -/
def State.setPeer (a : Addr) (p : Peer) (s : State) : State :=
  let before := (s.peer a).state
  let s := s.modPeers (fun t => { t with entries := t.entries.put BitVec.toNat {} a p })
  if before ≠ p.state ∧ s.start ≠ .reReading then s.stateNotice a before p.state else s

/-! ## Sightings and aging (R93, R94) -/

/-- An entry after a sighting with a fold count and hops. -/
def Peer.sighted (fold hops : Nat) (p : Peer) : Peer :=
  { p with state := .present, age := 0, lastHops := if fold = 1 then some hops else p.lastHops }

/-- A sighting of a frame's source (R56, R93). -/
def State.sight (f : Frame) (s : State) : State := s.setPeer f.source ((s.peer f.source).sighted f.fold f.hops)

/-- An entry after an expiry of the presence timer (R94). -/
def Peer.aged (limit : Nat) (p : Peer) : Peer :=
  let age := min (p.age + 1) 255
  match p.state with
  | .absent => p
  | .lost => { p with age := age }
  | .present => if max limit 1 ≤ age then { p with state := .lost, age := age } else { p with age := age }

/-- One entry ages. -/
def State.agePeer (a : Addr) (s : State) : State :=
  let p := (s.peer a).aged s.image.peerLossLimit
  let lost := (s.peer a).state == .present && p.state == .lost
  let s := if lost then s.tally .peersLost else s
  s.setPeer a p

/-- Every entry ages, lowest address first (DESIGN CHOICE, log 45: the manual gives no order of the entries). -/
def State.agePeers : List Addr → State → State
  | [], s => s
  | a :: t, s => State.agePeers t (s.agePeer a)

/-! ## Copied PRESENCE and CONDITION frames (R96, R97) -/

/-- An entry's levels are replaced; a change gives a level notice, unless it is held by RE_READING. -/
def State.storeLevels (a : Addr) (p : Peer) (s : State) : State :=
  let changed := p.levels != (s.peer a).levels
  let s := s.modPeers (fun t => { t with entries := t.entries.put BitVec.toNat {} a p })
  if changed && s.start != .reReading then s.signPeerNotice a else s

/-- A PRESENCE frame at the copy step: whether it is taken. -/
def State.presenceCopy (f : Frame) (s : State) : Bool × State :=
  match readPresence f.payload with
  | some (part, levels) =>
    (true, s.storeLevels f.source { (s.peer f.source) with presence := some part, levels := some levels })
  | none => (false, s.tally .peerBadPayload)

/-- A CONDITION frame offered to the Peer Table: whether it is taken. -/
def State.conditionCopy (f : Frame) (s : State) : Bool × State :=
  match readCondition f.payload with
  | some levels => (true, s.storeLevels f.source { (s.peer f.source) with levels := some levels })
  | none => (false, s.tally .peerBadPayload)

/-! ## The station's own PRESENCE frame (R98, R99) -/

/-- A port as PRESENCE shows it. -/
def PortRec.summary (r : PortRec) : PortSummary := ⟨r.link, r.errorState, r.folded, r.neighbour⟩

/-- The levels that PRESENCE carries: CLEAR with UNKNOWN where the weather role is not STATION (R99, R159). -/
def State.shownLevels (s : State) : PerCondition Level :=
  if s.image.roles.weather = .station then s.ownLevels else ⟨{}, {}, {}⟩

/-- The payload of a PRESENCE frame built at this moment (R99). -/
def State.presenceNow (s : State) : List Byte :=
  let roles := s.image.roles
  presencePayload
    { roles := { roles with signCount := if roles.sign = .signs then roles.signCount else 0 }
      west := s.west.summary
      east := s.east.summary
      offHook := s.offHookCount
      occupancy := if roles.toll = .reader then s.journal.entries.length else 0
      alerts := s.latchedCount }
    s.shownLevels

/-- A PRESENCE frame is placed, or the waiting one is rebuilt (R98). -/
def State.makePresence (s : State) : State :=
  if s.waitsClass2 .presence then (s.rebuildClass2 .presence s.presenceNow).tally .presenceRefreshed
  else match s.place .ordinaryOut .presence 0 false 0 s.presenceNow with
    | (true, s) => s.tally .presenceSent
    | (false, s) => s.tally .ordinarySkipped

/-- PRESENCE_TIMER_EXPIRY: aging, then the PRESENCE frame (R94, R98). -/
def State.presenceExpiry (s : State) : State :=
  ((s.modPeers (fun t => { t with timer := t.timer.take })).agePeers allStations).makePresence

/-! ## Service restarts (R95, R100) -/

/-- The entries are noted as RE_READING begins. -/
def State.notePeers (s : State) : State := s.modPeers (fun t => { t with noted := t.entries })

/-- The state-change notices held by RE_READING, lowest address first. -/
def State.heldStateNotices (noted : Table Addr Peer) : List Addr → State → State
  | [], s => s
  | a :: t, s =>
    let before := (noted.get {} a).state
    let after := (s.peer a).state
    State.heldStateNotices noted t (if before = after then s else s.stateNotice a before after)

/-- The level notices held by RE_READING. -/
def State.heldLevelNotices (noted : Table Addr Peer) : List Addr → State → State
  | [], s => s
  | a :: t, s =>
    State.heldLevelNotices noted t (if (noted.get {} a).levels = (s.peer a).levels then s else s.signPeerNotice a)

/-- The notices held by RE_READING are given (R95). -/
def State.heldNotices (s : State) : State :=
  let noted := s.peers.noted
  ((s.heldStateNotices noted allStations).heldLevelNotices noted allStations).modPeers (fun t => { t with noted := [] })

/-- The waiting PRESENCE frame is removed and its cell freed (R100, step 1). -/
def State.dropPresence (s : State) : State := s.dropClass2 (fun h => h.frame.kind == .presence)

/-- The presence timer is armed again and a PRESENCE frame prepared (R100, steps 2 and 3). -/
def State.restartPeers (s : State) : State :=
  (s.modPeers (fun t => { t with timer := Timer.armRepeating s.image.presenceInterval })).makePresence

end Sys2Proof.Machine
end

