-- ==== Sys2Proof/Machine/Maint.lean ====
section
/-! DEFINITION. The Maintenance Unit (chapter 12): requests, STATUS frames, READ replies and what their sections show,
commands, and the acknowledge input. -/

namespace Sys2Proof.Machine

/-! ## What the sections show

The values of each section in the order in which the rules list them. Their bytes are `Config.sectionBytes` of the section
and its values (log 9). A value that is absent is given as 0 and one that is present as 1 followed by the value. -/

def flagItem (b : Bool) : Int := if b then 1 else 0

def optItems (x : Option Int) : List Int :=
  match x with
  | none => [0]
  | some v => [1, v]

def natItems (x : Option Nat) : List Int := optItems (x.map (fun n => (n : Int)))

/-- Pulses left on a timer. -/
def Timer.item (t : Timer) : Int := t.left

def byteItems (l : List Byte) : List Int := l.map (fun b => (b.toNat : Int))

def wordItem (w : Word) : Int := w.toNat

def addrItem (a : Addr) : Int := a.toNat

def levelItems (l : Level) : List Int := [(l.level : Int), (l.flag.code : Int)]

/-- The counters in a list, as shown. -/
def State.counterItems (l : List Counter) (s : State) : List Int := l.map (fun c => wordItem (s.counter c))

def portCounters : List PortCounter :=
  [.framesIn, .framesOut, .headerCorrected, .headerDiscarded, .headerInvalid, .payloadDamaged, .damagedPassing,
    .delimiterErrors, .lineCodeErrors, .abortedIn, .cut, .spanWordsIn, .spanErrors, .signalLoss, .notAccepted, .linkDowns,
    .joins, .selfHeard]

/-- One port in the PORTS section (R25, R32, R34, R46, R53). -/
def State.portItems (p : Port) (s : State) : List Int :=
  let r := s.port p
  [(r.link.code : Int), flagItem r.hearing, (r.spanSent.code : Int), flagItem r.faultSent, (r.cause.ctorIdx : Int),
    (r.errorState.code : Int), flagItem r.folded, addrItem r.neighbour] ++
    s.counterItems (portCounters.map (Counter.port p))

def State.portsItems (s : State) : List Int :=
  s.portItems .west ++ s.portItems .east ++ s.counterItems [.station .turnedBack, .station .orphans]

def PortSummary.items (p : PortSummary) : List Int :=
  [(p.link.code : Int), (p.errorState.code : Int), flagItem p.folded, addrItem p.neighbour]

def rolesItems (r : Roles) : List Int :=
  [(r.phone.code : Int), (r.toll.code : Int), (r.weather.code : Int), (r.sign.code : Int), (r.signCount : Int)]

/-- One entry of the PEERS section (R102). -/
def Peer.items (p : Peer) : List Int :=
  [(p.state.ctorIdx : Int), (p.age : Int)] ++ natItems p.lastHops ++
    (match p.presence with
      | none => [0]
      | some q => [1] ++ rolesItems q.roles ++ q.west.items ++ q.east.items ++
          [(q.offHook : Int), (q.occupancy : Int), (q.alerts : Int)]) ++
    (match p.levels with
      | none => [0]
      | some l => [1] ++ l.toList.flatMap levelItems)

def State.peersItems (s : State) : List Int :=
  (s.peers.entries.flatMap (fun e => if e.2.state = .absent then [] else addrItem e.1 :: e.2.items)) ++
    [s.peers.timer.item, (s.image.peerLossLimit : Int), (s.image.presenceInterval : Int), addrItem s.phoneHome,
      addrItem s.tollHome, addrItem s.weatherHome]

def allUsers : List User := [.transitRise, .transitFall, .urgentOut, .journal, .ordinaryOut, .weatherOut, .receive]

/-- The CELLS section (R63, R69, R77, R85, R91). -/
def State.cellsItems (s : State) : List Int :=
  let returned (k : ReturnKind) (p : ReturnEntry → Bool) : Int := s.returns.countP (fun e => e.kind == k && p e)
  (allUsers.flatMap (fun u =>
    let r := s.store.users.get u
    [(r.guarantee : Int), (r.maximum : Int), (r.count : Int), (r.peak : Int), wordItem (s.counter (.refusals u))])) ++
  [(s.store.free.length : Int), (s.store.sharedFree : Int), (s.store.origin.ctorIdx : Int),
    (s.queues.riseUrgent.length : Int), (s.queues.riseOrdinary.length : Int), (s.queues.fallUrgent.length : Int),
    (s.queues.fallOrdinary.length : Int)] ++
  ([ReturnKind.toll, .sign].flatMap (fun k =>
    [returned k (fun e => e.phase == .pending), returned k (fun e => e.phase == .awaiting),
      returned k ReturnEntry.isHeld])) ++
  [flagItem s.holdback.starved] ++
  (s.holdback.entries.flatMap (fun e => [addrItem e.originator, (e.quota : Int), e.expiry.item])) ++
  natItems s.holdback.applied ++ [(s.holdback.inserted : Int)]

def JournalEntry.items (e : JournalEntry) : List Int :=
  [wordItem e.seq, (e.readerTag.toNat : Int), (e.record.length : Int), (e.state.ctorIdx : Int), (e.attempts : Int),
    flagItem e.parkTurn, e.backoff.item]

/-- The JOURNAL section at a READER (R153) and at a COLLECTOR (R158), which shows the source table alone, and none elsewhere,
whatever entries and notices the journal keeps from an earlier role (DESIGN CHOICE, log 55). -/
def State.journalItems (s : State) : Option (List Int) :=
  match s.image.roles.toll with
  | .none => none
  | .reader =>
    let count (st : JournalState) : Int := s.journal.entries.countP (fun e => e.state == st)
    some ([count .waiting, count .inFlight, count .parked, wordItem s.journal.seq, s.journal.park.item,
        flagItem s.journal.due.isSome] ++ s.journal.entries.flatMap JournalEntry.items ++
      (s.link .toll).queue.flatMap (fun m => if m.holder = .notice then (m.kind.toNat : Int) :: byteItems m.body else []))
  | .collector =>
    some (s.collector.sources.flatMap (fun e =>
        [addrItem e.1, (e.2.state.ctorIdx : Int), (e.2.highest.toNat : Int), (e.2.accepts : Int), (e.2.window.toNat : Int)])
      ++ [((s.link .toll).queue.countP (fun m => m.kind == kindCollected) : Int)])

/-- One line in the CALLS section (R125). -/
def State.lineItems (i : Fin 4) (s : State) : List Int :=
  let l := s.line i
  [(l.state.ctorIdx : Int), (l.toneOctet.toNat : Int)] ++ optItems (l.partner.map addrItem) ++ natItems l.position ++
    natItems l.channel ++ [flagItem l.reestablishing, (l.offRun : Int), (l.onRun : Int),
      ((s.voice (.line i)).slot.state.ctorIdx : Int)]

/-- One channel in the CALLS section (R141). -/
def State.channelItems (c : Fin 16) (s : State) : List Int :=
  let r := s.channel c
  [(r.state.ctorIdx : Int)] ++ optItems (r.party.map (fun p => (p.toByte.toNat : Int))) ++
    optItems (r.arrival.map wordItem) ++ [flagItem r.cleared, r.refresh.item, r.supervision.item, r.ring.item,
      r.clearing.item, (r.previous.toNat : Int)]

/-- The CALLS section at ROADSIDE (R125) and at SWITCHBOARD (R141); none elsewhere. -/
def State.callsItems (s : State) : Option (List Int) :=
  match s.image.roles.phone with
  | .none => none
  | .roadside => some (allFour.flatMap s.lineItems ++ [flagItem s.phone.inStep, (s.offHookCount : Int)])
  | .switchboard =>
    some (allSixteen.flatMap s.channelItems ++
      s.switchboard.waiting.flatMap (fun w =>
        [(w.party.toByte.toNat : Int), wordItem w.arrival, (positionOf w.party s.switchboard.waiting : Int)]) ++
      [wordItem s.switchboard.arrival, flagItem s.phone.inStep])

def Selection.items : Selection → List Int
  | .blank => [0]
  | .centre n => [1, n]
  | .conditions p => [2, p.toNat]
  | .incident p => [3, p.toNat]
  | .test p => [4, p.toNat]

/-- One sign in the SIGNS section (R190). -/
def State.signItems (i : Fin 4) (s : State) : List Int :=
  let r := s.sign i
  (match r.centre with
    | none => [0]
    | some c => [1, wordItem c.id, (c.priority : Int), c.lifetime.item, (c.text.length : Int)] ++ byteItems c.text) ++
  [flagItem r.incident, (s.image.incidentPriority : Int)] ++
  (match r.test with
    | none => [0]
    | some t => [1, (Config.testPriority : Int), (t.pattern.toNat : Int), t.duration.item]) ++
  r.selection.items ++ [(r.handover.ctorIdx : Int), flagItem r.fault] ++
  optItems (r.outstanding.map (fun o => (o.number.toNat : Int))) ++ [flagItem r.pendingFlag, (r.timeouts : Int)]

/-- The SIGNS section at SIGNS and at CENTRE (R190); none elsewhere. -/
def State.signsItems (s : State) : Option (List Int) :=
  match s.image.roles.sign with
  | .none => none
  | .signs =>
    some (s.ownSigns.flatMap s.signItems ++ s.signs.zone.toList.map Int.ofNat ++
      optItems (s.signs.conditions.map (fun p => (p.toNat : Int))) ++
      [(s.image.conditionsPriority : Int), (s.signs.incident.ctorIdx : Int)])
  | .centre =>
    some ((match s.signs.buffer with
      | none => [0]
      | some (tag, body) => [1, (tag.toNat : Int)] ++ byteItems body) ++ [(s.outcomesHeld : Int)])

def QuantityRec.items (r : QuantityRec) : List Int :=
  [flagItem r.live] ++ optItems r.accepted ++ [r.smoothed] ++ optItems r.mean ++ [(r.missing : Int), (r.suspect : Int)]

def ConditionRec.items (r : ConditionRec) : List Int :=
  levelItems r.shown ++ optItems r.severity ++ [(r.up : Int), (r.down : Int), (r.held : Int)]

def Stats.items (t : Stats) : List Int :=
  [(t.samples : Int)] ++ optItems t.taMin ++ optItems t.taMax ++ optItems t.tsMin ++ optItems t.tsMax ++
    optItems t.gustMax ++ optItems t.visMin ++ [(t.missing : Int), (t.suspect : Int), (t.clamped : Int), (t.superseded : Int)]

/-- The CONDITIONS section (R176): the records and statistics at STATION, the count of queued messages alone at HOME, and none
elsewhere (DESIGN CHOICE, log 49). -/
def State.conditionsItems (s : State) : Option (List Int) :=
  let w := s.weather
  match s.image.roles.weather with
  | .none => none
  | .station =>
    some (allQuantities.flatMap (fun q => (w.quantities.get q).items) ++ [flagItem w.wet] ++ w.gusts ++
      w.conditions.toList.flatMap ConditionRec.items ++ w.stats.items ++ [w.report.item])
  | .home => some [((s.link .weather).queue.countP Message.homeward : Int)]

/-- The COUNTERS section: every event counter that is not 0 with its number, the sequence counters (R74) and the count of
clamped fields (R4). -/
def State.countersItems (s : State) : List Int :=
  s.counters.flatMap (fun e => [(e.1.code : Int), wordItem e.2]) ++
    [wordItem s.seqs.call, wordItem s.seqs.holdback, wordItem s.seqs.sign, wordItem s.seqs.condition,
      wordItem s.seqs.presence, wordItem s.seqs.status, wordItem s.seqs.weather, (s.loader.clamped : Int)]

/-- The ALERTS section (R198). -/
def State.alertsItems (s : State) : List Int :=
  (allAlerts.flatMap (fun a =>
    let r := s.alert a
    [flagItem r.latched, (r.time.toNat : Int), wordItem (s.counter (.occurrence a))])) ++
  [(s.image.enable.toNat : Int), flagItem s.alertLow, (s.maint.ackRun : Int), wordItem (s.counter (.station .acks))]

/-- A section's values, none where the station's roles give it no content (R193). -/
def State.sectionItems (n : Nat) (s : State) : Option (List Int) :=
  match n with
  | 0 => some s.portsItems
  | 1 => some s.peersItems
  | 2 => some s.cellsItems
  | 3 => s.journalItems
  | 4 => s.callsItems
  | 5 => s.signsItems
  | 6 => s.conditionsItems
  | 7 => some s.countersItems
  | _ => some s.alertsItems

/-- A section's contents at this moment. -/
def State.sectionContent (n : Nat) (s : State) : List Byte :=
  match s.sectionItems n with
  | some items => Config.sectionBytes n items
  | none => []

/-! ## Answers and replies (R191, R193, R194) -/

/-- The body of an ANSWER (13.4). -/
def answerBody (station : Addr) (tag : Byte) (r : Result) : List Byte :=
  [addrByte station, tag, BitVec.ofNat 8 r.code]

/-- The types of a STATUS payload (13.2). -/
def statusRequest : Byte := 1
def statusReply : Byte := 2
def statusAnswer : Byte := 3

/-- A REPLY or ANSWER built in an ORDINARY_OUT cell goes to its requester: as a message on the SERVICE link, or as a STATUS
reply frame with the request's tag. -/
def State.deliver (to_ : Requester) (tag kind type_ : Byte) (body : List Byte) (n : Nat) (s : State) : State :=
  match to_ with
  | .serviceLink => s.queueMessage .service { kind := kind, body := body, holder := .cell .ordinaryOut n }
  | .station a => s.insertLocal .ordinaryOut n .status a false tag (type_ :: body)

def State.setSlot (j : Option Job) (s : State) : State := s.modMaint (fun m => { m with slot := j })

/-- An ANSWER of BAD, BUSY or TIMEOUT on the SERVICE link; with no cell it is dropped and counted (R191). -/
def State.linkAnswer (station : Addr) (tag : Byte) (r : Result) (s : State) : State :=
  match s.requestCell .ordinaryOut with
  | (some n, s) => s.deliver .serviceLink tag kindAnswer statusAnswer (answerBody station tag r) n
  | (none, s) => s.tally .statusNotSent

/-- The answer of a job carried out; with no cell the job waits (R194). -/
def State.answerJob (j : Job) (r : Result) (s : State) : State :=
  match s.requestCell .ordinaryOut with
  | (some n, s) =>
    (s.deliver j.requester j.tag kindAnswer statusAnswer (answerBody s.image.address j.tag r) n).setSlot none
  | (none, s) => s.setSlot (some { j with stage := .answering r })

/-- Whether part `k` is the last of a section with these contents. -/
def lastPart (content : List Byte) (k : Nat) : Bool := decide (content.length ≤ Config.partBytes * (k + 1))

/-- The body of a REPLY (13.4). -/
def replyBody (station : Addr) (section_ part_ : Nat) (lastOfSection lastOfReply : Bool) (stamp : BitVec 24)
    (content : List Byte) : List Byte :=
  [addrByte station, BitVec.ofNat 8 section_, BitVec.ofNat 8 part_,
    BitVec.ofNat 8 ((if lastOfSection then 1 else 0) + (if lastOfReply then 2 else 0)),
    stamp.extractLsb' 16 8, stamp.extractLsb' 8 8, stamp.extractLsb' 0 8] ++
    (content.drop (Config.partBytes * part_)).take Config.partBytes

/-- A READ job from part `k` of the first of its sections on. Each part takes a cell, so no more parts can be made at once
than the store has cells; `n` bounds them. A section that has shrunk below part `k` while the job was paused ends with that
part, empty (DESIGN CHOICE, log 57). -/
def State.readParts (j : Job) : Nat → List Nat → Nat → State → State
  | 0, sections, k, s => s.setSlot (some { j with command := .read sections, stage := .reading k })
  | _ + 1, [], _, s => s.setSlot none
  | n + 1, x :: rest, k, s =>
    match s.requestCell .ordinaryOut with
    | (none, s) => s.setSlot (some { j with command := .read (x :: rest), stage := .reading k })
    | (some c, s) =>
      let content := s.sectionContent x
      let last := lastPart content k
      let body := replyBody s.image.address x k last (last && rest.isEmpty) s.timebase content
      let s := (s.deliver j.requester j.tag kindReply statusReply body c).tally .replyParts
      if last then State.readParts j n rest 0 s else State.readParts j n (x :: rest) (k + 1) s

/-- A READ job goes on (R193). -/
def State.readOn (j : Job) (s : State) : State :=
  match j.command, j.stage with
  | .read sections, .taken => s.readParts j (Config.cells + 1) sections 0
  | .read sections, .reading k => s.readParts j (Config.cells + 1) sections k
  | _, _ => s

/-! ## Requests (R191, R192) -/

/-- A request as the part sends it on (R200): the target, the command and the section set, which is 0 for a command that does
not use it, and has no bits but those of the nine sections (DEDUCED, log 63). -/
def requestSent (body : List Byte) : List Byte :=
  [byteAt body 0, byteAt body 1] ++ wordBytes (if byteAt body 1 = 1 then wordAt body 2 &&& 0x01FF else 0)

/-- A remote request is placed and the wait begins; false when no cell is granted. `body` is the request as the part sends it. -/
def State.placeRemote (target : Addr) (tag : Byte) (body : List Byte) (s : State) : Bool × State :=
  match s.place .ordinaryOut .status target false tag (statusRequest :: body) with
  | (true, s) =>
    (true, s.modMaint (fun m => { m with
      wait := some { target := target, tag := tag, timer := Timer.arm s.image.statusTimeout } }))
  | (false, s) => (false, s)

/-- A REQUEST handed to the unit (R191). -/
def State.takeRequest (tag : Byte) (body : List Byte) (s : State) : State :=
  match readRequest body with
  | none => (s.tally .statusBad).linkAnswer s.image.address tag .bad
  | some (target, c) =>
    if s.maint.slot.isSome ∨ s.maint.wait.isSome then (s.tally .statusBusy).linkAnswer s.image.address tag .busy
    else if target = 0 ∨ target = s.image.address then
      s.setSlot (some { command := c, requester := .serviceLink, tag := tag, stage := .taken })
    else match s.placeRemote target tag (requestSent body) with
      | (true, s) => s
      | (false, s) =>
        s.setSlot
          (some { command := c, requester := .serviceLink, tag := tag, stage := .remote target (requestSent body) })

/-- The pending remote request is tried again. -/
def State.retryRemote (s : State) : State :=
  match s.maint.slot with
  | some ⟨_, _, tag, .remote target body⟩ =>
    match s.placeRemote target tag body with
    | (true, s) => s.setSlot none
    | (false, s) => s
  | _ => s

/-- A STATUS request frame at the copy step: whether it is taken (R192). -/
def State.statusRequestCopy (f : Frame) (s : State) : Bool × State :=
  if f.source ≠ s.image.maintenance ∨ s.image.maintenance = 0 then (false, s.tally .statusRefused)
  else if byteAt f.payload 0 ≠ statusRequest then (false, s.tally .statusBad)
  else match readRequest (f.payload.drop 1) with
    | none => (false, s.tally .statusBad)
    | some (_, c) =>
      if s.maint.slot.isSome then (false, s.tally .statusBusy)
      else (true, s.setSlot (some { command := c, requester := .station f.source, tag := f.tag, stage := .taken }))

/-- Whether a reply ends the wait: an ANSWER, or a part marked last of reply. -/
def endsWait (payload : List Byte) : Bool := byteAt payload 0 == statusAnswer || (byteAt payload 4).getLsbD 1

/-- The message that a reply frame is forwarded as. -/
def forwarded (payload : List Byte) (n : Nat) : Message :=
  { kind := if byteAt payload 0 = statusAnswer then kindAnswer else kindReply
    body := payload.drop 1
    holder := .cell .receive n }

/-- A STATUS reply frame at the copy step: whether it is taken (R192). -/
def State.statusReplyCopy (f : Frame) (s : State) : Bool × State :=
  match s.maint.wait with
  | none => (false, s.tally .statusStray)
  | some w =>
    if f.source ≠ w.target ∨ f.tag ≠ w.tag then (false, s.tally .statusStray)
    else match s.requestCell .receive with
      | (none, s) => (false, s)
      | (some n, s) =>
        let wait : Option RemoteWait :=
          if endsWait f.payload then none else some { w with timer := Timer.arm s.image.statusTimeout }
        (true, (s.modMaint (fun m => { m with wait := wait })).queueMessage .service (forwarded f.payload n))

/-- A STATUS frame at the copy step. A payload of neither reply type is taken as a request (log 21). -/
def State.statusCopy (f : Frame) (s : State) : Bool × State :=
  let t := byteAt f.payload 0
  if f.payload ≠ [] ∧ (t = statusReply ∨ t = statusAnswer) then s.statusReplyCopy f else s.statusRequestCopy f

/-- REMOTE_WAIT_EXPIRY (R195). -/
def State.waitExpires (w : RemoteWait) (s : State) : State :=
  ((s.modMaint (fun m => { m with wait := none })).tally .statusTimeouts).linkAnswer w.target w.tag .timeout

/-! ## The acknowledge input (R199) -/

/-- A sample of ACK_N. -/
def State.ackSample (low : Bool) (s : State) : State :=
  let s := s.modPins (fun p => { p with ackLow := low })
  if !low then s.modMaint (fun m => { m with ackRun := 0 })
  else if s.maint.ackRun = 0 then s.modMaint (fun m => { m with ackRun := 1 })
  else if s.maint.ackRun = 1 then ((s.modMaint (fun m => { m with ackRun := 2 })).clearLatches).tally .acks
  else s

/-! ## The end of a service restart (R196) -/

/-- The job of a SERVICE_RESTART under way. -/
def State.restartJob (s : State) : Option Job :=
  match s.maint.slot with
  | some j => if j.stage = .restarting then some j else none
  | none => none

/-- The Maintenance Unit's restart state: other jobs are abandoned, the wait is ended with ANSWER(TIMEOUT), the unit's
STATUS frames are removed, and the answer of the SERVICE_RESTART job is made (R196). ANSWER(TIMEOUT) asks for its cell before
those frames free theirs (DESIGN CHOICE, log 66). -/
def State.restartMaint (passed : Bool) (s : State) : State :=
  let job := s.restartJob
  let wait := s.maint.wait
  let s := s.modMaint (fun m => { m with slot := job, wait := none })
  let s := match wait with
    | some w => s.linkAnswer w.target w.tag .timeout
    | none => s
  let s := s.dropClass2 (fun h => h.frame.kind == .status)
  match job with
  | some j => s.answerJob j (if passed then .taken else .keptImage)
  | none => s

end Sys2Proof.Machine
end

