-- ==== Sys2Proof/Machine/Carriage.lean ====
section
/-! DEFINITION. Presentation (4.1), the copy step (4.2), turning back and orphans (3.7), and the arbiters' choices (4.4). -/

namespace Sys2Proof.Machine

/-! ## The holdback list (R88) -/

/-- A new or refreshed entry: three holdback periods (R88). -/
def Holdback.entryFor (period : Nat) (a : Addr) (quota : Nat) (h : Holdback) : HoldbackEntry :=
  { originator := a, quota := quota, expiry := Timer.arm (Config.holdbackLife * max period 1), armed := h.armings }

/-- Of two entries, the one with fewer pulses left, or of two with equally few the one armed earlier. -/
def HoldbackEntry.sooner (a b : HoldbackEntry) : HoldbackEntry :=
  if b.expiry.left < a.expiry.left ∨ (b.expiry.left = a.expiry.left ∧ b.armed < a.armed) then b else a

/-- The entry that a replacement removes. -/
def soonest : List HoldbackEntry → Option HoldbackEntry
  | [] => none
  | e :: t => some (t.foldl HoldbackEntry.sooner e)

/-- The holdback list after a HOLDBACK, and whether an entry was replaced. -/
def Holdback.copied (period : Nat) (a : Addr) (quota : Nat) (h : Holdback) : Holdback × Bool :=
  let e := h.entryFor period a quota
  let h' := { h with armings := h.armings + 1 }
  if h.entries.any (fun x => x.originator == a) then
    ({ h' with entries := h.entries.map (fun x => if x.originator = a then e else x) }, false)
  else if h.entries.length < Config.holdbackPlaces then ({ h' with entries := h.entries ++ [e] }, false)
  else match soonest h.entries with
    | some gone => ({ h' with entries := h.entries.map (fun x => if x.originator = gone.originator then e else x) }, true)
    | none => (h', false)

/-- A HOLDBACK frame at the copy step: it is taken (R88). -/
def State.holdbackCopy (f : Frame) (s : State) : Bool × State :=
  let (h, replaced) := s.holdback.copied s.image.holdbackPeriod f.source (max f.tag.toNat 1)
  let s := (s.modHoldback (fun _ => h)).tally .holdbackCopied
  (true, if replaced then s.tally .holdbackReplaced else s)

/-! ## The copy step (R59 to R61) -/

/-- Whether a frame is addressed here (R59). -/
def State.addressedHere (f : Frame) (s : State) : Bool :=
  if f.group then f.dest &&& s.image.groupMask == s.image.groupCode &&& s.image.groupMask
  else f.dest == 0 || f.dest == s.image.address

/-- Whether the station holds a role that takes a kind (R61); in RE_READING the roles count as NONE for every kind but
HOLDBACK, PRESENCE and CONDITION. -/
def State.takesKind (k : Kind) (s : State) : Bool :=
  match k with
  | .holdback | .presence | .condition => true
  | .voice | .call => s.inService && s.image.roles.phone != .none
  | .toll => s.inService && s.image.roles.toll == .collector
  | .sign => s.inService && s.image.roles.sign == .signs
  | .status => s.inService
  | .weather => s.inService && s.image.roles.weather == .home

/-- What the jobs offered a frame decide: whether one takes it and whether one refuses it. -/
structure Verdict where
  takes : Bool
  refuses : Bool
  deriving DecidableEq, Repr

/-- The verdict of a single job. -/
def verdictOf (r : Bool × State) : Verdict × State := (⟨r.1, !r.1⟩, r.2)

/-- A CONDITION frame is offered to the Peer Table and, at a HOME in service, to the Weather Unit as well (R61). -/
def State.offerCondition (f : Frame) (s : State) : Verdict × State :=
  let (peer, s) := s.conditionCopy f
  if s.inService ∧ s.image.roles.weather = .home then
    let (home, s) := s.homeConditionCopy f
    (⟨peer || home, !peer || !home⟩, s)
  else (⟨peer, !peer⟩, s)

/-- A frame is offered to the job or jobs of its kind (R61). -/
def State.offerJob (h : Held) (s : State) : Verdict × State :=
  let f := h.frame
  match f.kind with
  | .voice => verdictOf (if s.image.roles.phone = .switchboard then s.switchVoiceCopy f else s.lineVoiceCopy f)
  | .call => verdictOf (if s.image.roles.phone = .switchboard then s.switchCallCopy f else s.lineCallCopy f)
  | .holdback => verdictOf (s.holdbackCopy f)
  | .toll => verdictOf (s.tollCopy h)
  | .sign => verdictOf (s.signCopy f)
  | .condition => s.offerCondition f
  | .presence => verdictOf (s.presenceCopy f)
  | .status => verdictOf (s.statusCopy f)
  | .weather => verdictOf (s.weatherCopy f)

/-- The marks that a verdict leaves; marks already set are kept (R60). -/
def Frame.mark (v : Verdict) (f : Frame) : Frame := { f with taken := f.taken || v.takes, refused := f.refused || v.refuses }

/-- The counts of a verdict (R60). -/
def State.countVerdict (v : Verdict) (s : State) : State :=
  let s := if v.takes then s.tally .copied else s
  if v.refuses then s.tally .refusedHere else s

/-- The four outcomes of the copy step, tested in order (R60). -/
def State.copyStep (h : Held) (s : State) : Held × State :=
  let f := h.frame
  if f.damaged then (h, s.tally .notCopiedDamaged)
  else if !s.takesKind f.kind then
    if s.direct f then ({ h with frame := { f with refused := true } }, s.tally .refusedHere) else (h, s)
  else
    let (v, s) := s.offerJob h
    ({ h with frame := f.mark v }, s.countVerdict v)

/-! ## Presentation, routing and turning back (R48, R49, R54 to R58, R62) -/

/-- A frame that finds no transit cell (R54, R81). -/
def State.transitDropped (s : State) : State := (s.tally .transitDrop).report .cellShortage

/-- The first stage (R55). -/
def Held.hop (h : Held) : Held := { h with frame := { h.frame with hops := min (h.frame.hops + 1) 255 } }

/-- A frame made ready for its presentation in a new direction (R48). -/
def Held.turned (d : Dir) (n : Nat) (h : Held) : Held :=
  { h with
    frame := { h.frame with fold := h.frame.fold + 1 }
    cell := n
    user := Dir.user (Dir.flip d)
    arrival := Dir.flip d }

/-- A frame leaving in direction `d` gives up the cell it holds for one of the other direction's transit user, keeping it
when that user is able; a TOLL frame of this station leaves its JOURNAL cell and has one filled from it (R48, R68; log
11). -/
def State.turnCell (d : Dir) (h : Held) (s : State) : Option Nat × State :=
  let user := Dir.user (Dir.flip d)
  if h.user = .journal then s.requestCell user
  else match s.store.transfer h.user user h.cell with
    | some st => (some h.cell, s.modStore (fun _ => st))
    | none => (none, (s.freeCell h.user h.cell).count (.refusals user))

/-- The stages between the hop count and routing: peer learning, the clash check, the strip step and the copy step. None
when the frame has been stripped (R56 to R60). -/
def State.stages (h : Held) (s : State) : Option Held × State :=
  let f := h.frame
  if s.start = .transparent then (some h, s)
  else if f.source = s.image.address then
    if f.fold = 0 then (some h, (s.tally .addressClash).report .addressClash)
    else if f.fold = 2 then
      let s := (s.tally .stripped).releaseHeld h
      (none, match f.kind with
        | .toll => s.lookUpReturn .toll f
        | .sign => s.lookUpReturn .sign f
        | _ => s)
    else (some h, s)
  else
    let s := s.sight f
    if f.fold = 1 ∧ s.addressedHere f then
      let (h, s) := s.copyStep h
      (some h, s)
    else (some h, s)

/-- A presentation in direction `d`. Each turning back raises the fold count, and a frame at fold count 2 that is to be
turned back is an orphan, so three presentations suffice. -/
def State.presentSome : Nat → Dir → Held → State → State
  | 0, _, h, s => (s.tally .orphans).releaseHeld h
  | n + 1, d, h, s =>
    match s.stages h.hop with
    | (none, s) => s
    | (some h, s) =>
      if s.folded (Dir.side d) then
        if 2 ≤ h.frame.fold then (s.tally .orphans).releaseHeld h
        else match (s.tally .turnedBack).turnCell d h with
          | (none, s) => s.transitDropped
          | (some c, s) => State.presentSome n (Dir.flip d) (h.turned d c) s
      else s.modQueues (Queues.joinTransit d h)

def State.present (d : Dir) (h : Held) (s : State) : State := s.presentSome 3 d h

/-- A frame that was to leave in direction `d` by a folded side is turned back, or discarded as an orphan (R48, R49). -/
def State.turnBack (d : Dir) (h : Held) (s : State) : State :=
  if 2 ≤ h.frame.fold then (s.tally .orphans).releaseHeld h
  else match (s.tally .turnedBack).turnCell d h with
    | (none, s) => s.transitDropped
    | (some c, s) => s.present (Dir.flip d) (h.turned d c)

def State.turnBackAll (d : Dir) : List Held → State → State
  | [], s => s
  | h :: t, s => State.turnBackAll d t (s.turnBack d h)

/-- A frame accepted from a port is given a cell and presented, or dropped (R54). -/
def State.takeIn (d : Dir) (f : Frame) (corrected : Bool) (s : State) : State :=
  match s.requestCell (Dir.user d) with
  | (none, s) => s.transitDropped
  | (some n, s) => s.present d { frame := f, cell := n, user := Dir.user d, arrival := d, corrected := corrected }

/-! ## The arbiters (R65 to R67, R70) -/

/-- Where the RISE arbiter's choice comes from. -/
inductive Origin where
  | transit | localUrgent | localOrdinary
  deriving DecidableEq, Repr

/-- Steps 3 and 4 of R65. -/
def Queues.chooseOrdinary (locals allowed : Bool) (q : Queues) : Option (Held × Origin × Queues) :=
  match q.riseOrdinary with
  | h :: t => some (h, .transit, { q with riseOrdinary := t })
  | [] =>
    if locals && allowed then
      match q.localToll, q.localClass2, q.localWeather with
      | h :: t, _, _ => some (h, .localOrdinary, { q with localToll := t })
      | [], h :: t, _ => some (h, .localOrdinary, { q with localClass2 := t })
      | [], [], h :: t => some (h, .localOrdinary, { q with localWeather := t })
      | [], [], [] => none
    else none

/-- The RISE arbiter's choice with the queues it leaves; `locals` is whether the local queues are served and `allowed` the
Holdback Unit's answer (R65, R66). -/
def Queues.chooseRise (locals allowed : Bool) (q : Queues) : Option (Held × Origin × Queues) :=
  match q.riseUrgent with
  | h :: t => some (h, .transit, { q with riseUrgent := t })
  | [] =>
    match locals, q.localUrgent with
    | true, h :: t => some (h, .localUrgent, { q with localUrgent := t })
    | _, _ => q.chooseOrdinary locals allowed

/-- The FALL arbiter's choice (R67). -/
def Queues.chooseFall (q : Queues) : Option (Held × Origin × Queues) :=
  match q.fallUrgent, q.fallOrdinary with
  | h :: t, _ => some (h, .transit, { q with fallUrgent := t })
  | [], h :: t => some (h, .transit, { q with fallOrdinary := t })
  | [], [] => none

/-- The choice of a direction's arbiter. The local queues are passed over in RE_READING. -/
def State.choice (d : Dir) (s : State) : Option (Held × Origin × Queues) :=
  match d with
  | .rise => s.queues.chooseRise (s.start != .reReading) s.holdback.allows
  | .fall => s.queues.chooseFall

/-- A chosen frame has left its queue. A local frame is launched; an ordinary one is told to the Holdback Unit (R66,
R70). -/
def State.launch (h : Held) (o : Origin) (s : State) : State :=
  match o with
  | .transit => s
  | .localUrgent => (s.tally .inserted).launchReturn h.frame
  | .localOrdinary =>
    ((s.tally .inserted).launchReturn h.frame).modHoldback
      (Holdback.insertion s.image.starveLimit s.queues.starving)

/-- The arbiter of a direction may choose: its transmitter is IDLE and owes no span word, or on a folded side the line
time of the frame before has passed (R65, R50). -/
def PortRec.mayChoose (r : PortRec) : Bool :=
  if r.folded then r.lineWait.isNone else r.tx == .idle && !r.owesSpan

/-- A chosen frame goes to the transmitter, or is turned back with its line time to wait out (R28, R50). -/
def State.dispatch (d : Dir) (h : Held) (s : State) : State :=
  if s.folded (Dir.side d) then
    (s.turnBack d h).modPort (Dir.side d) (fun r => { r with lineWait := some h.frame.symbols })
  else s.modPort (Dir.side d) (fun r => { r with tx := .frame h, aborts := false })

/-- ARBITER_CHOICE. -/
def State.arbitrate (d : Dir) (s : State) : State :=
  match s.choice d with
  | none => s
  | some (h, o, q) => ((s.modQueues (fun _ => q)).launch h o).dispatch d h

/-! ## Holdback timers (R87, R89, R90) -/

/-- STARVATION_TIMER_EXPIRY. -/
def State.starves (s : State) : State :=
  (((s.modHoldback (fun h => { h with starved := true, starvation := Timer.stopped })).tally .starved).sendHoldback).modHoldback
    (fun h => { h with repeating := Timer.armRepeating s.image.holdbackPeriod })

/-- HOLDBACK_REPEAT_EXPIRY. -/
def State.holdbackRepeats (s : State) : State :=
  (s.modHoldback (fun h => { h with repeating := h.repeating.take })).sendHoldback

/-- HOLDBACK_ENTRY_EXPIRY: the entry is removed; the applied quota follows. -/
def State.holdbackLapses (a : Addr) (s : State) : State :=
  s.modHoldback (fun h => { h with entries := h.entries.filter (fun e => e.originator != a) })

/-- HOLDBACK_PERIOD_EXPIRY. -/
def State.holdbackPeriodEnds (s : State) : State :=
  s.modHoldback (fun h => { h with inserted := 0, period := h.period.take })

/-- The Holdback Unit's restart state (R91); its frames have left the URGENT queue before. -/
def State.restartHoldback (s : State) : State :=
  (s.dropUrgent (fun h => h.frame.kind == .holdback)).modHoldback (fun h =>
    { armings := h.armings, period := Timer.armRepeating s.image.holdbackPeriod })

end Sys2Proof.Machine
end

