-- ==== Sys2Proof/Machine/Reception.lean ====
section
/-! DEFINITION. The line ports' receivers (R17 to R26): how line symbols become frames and span words, and what ends an item
early. -/

namespace Sys2Proof.Machine

/-! ## The header at its ninth byte (R20, R21) -/

/-- The header after R20 and R21: the frame and its length with the note of a corrected header, or the failure. -/
inductive HeaderOutcome where
  | passes (f : Frame) (length : Nat) (corrected : Bool)
  | discarded
  | invalid (corrected : Bool)
  deriving DecidableEq, Repr

def readHeader (header : BitVec 72) : HeaderOutcome :=
  match checkHeader header with
  | .uncorrectable => .discarded
  | .clean fields => match fieldsFrame fields with
    | some (f, n) => .passes f n false
    | none => .invalid false
  | .corrected fields => match fieldsFrame fields with
    | some (f, n) => .passes f n true
    | none => .invalid true

/-- The 72 header bits of nine header bytes, high byte first (R18). -/
def headerBits (bytes : List Byte) : BitVec 72 :=
  byteAt bytes 0 ++ byteAt bytes 1 ++ byteAt bytes 2 ++ byteAt bytes 3 ++ byteAt bytes 4 ++ byteAt bytes 5 ++
    byteAt bytes 6 ++ byteAt bytes 7 ++ byteAt bytes 8

/-- The payload CRC of four CRC bytes, high byte first (R23). -/
def crcBits (bytes : List Byte) : BitVec 32 := byteAt bytes 0 ++ byteAt bytes 1 ++ byteAt bytes 2 ++ byteAt bytes 3

/-- The data symbols between the header and FRAME_END of a frame of the given length: the payload, and its CRC where there is
one (R18, R21). -/
def bodySymbols (length : Nat) : Nat := if length = 0 then 0 else length + 4

/-! ## What symbols bring -/

/-- Why a port discards a frame (R20 to R22). -/
inductive DiscardCause where
  /-- The header is uncorrectable (R20). -/
  | headerDiscarded
  /-- The header fails its field check (R21). -/
  | headerInvalid
  /-- A misplaced or missing delimiter, or signal loss (R22). -/
  | delimiter
  /-- A line-code error inside the frame. -/
  | lineCode
  /-- ABORT inside the frame. -/
  | aborted
  deriving DecidableEq, Repr

/-- The counter of a discard (R20 to R22, R34). -/
def DiscardCause.counter : DiscardCause → PortCounter
  | .headerDiscarded => .headerDiscarded
  | .headerInvalid => .headerInvalid
  | .delimiter => .delimiterErrors
  | .lineCode => .lineCodeErrors
  | .aborted => .abortedIn

/-- What a symbol can bring. -/
inductive PortEvent where
  /-- FRAME_END where it is expected: the decoded header, the note of a corrected one, the payload and the CRC bytes (R23,
  R24). -/
  | frame (f : Frame) (corrected : Bool) (payload : List Byte) (crc : BitVec 32)
  | discarded (cause : DiscardCause)
  /-- A valid span word (R25). -/
  | spanWord (sender : Addr) (st : SpanState) (fault : Bool)
  /-- An invalid span word; `codeError` where a line-code error ended it (R22, R25). -/
  | spanInvalid (codeError : Bool)
  /-- A line-code error in HUNTING (R19). -/
  | codeError
  deriving DecidableEq, Repr

/-- What a symbol does to a receiver: the receive state, whether a header has been corrected with it, and the event that it
brings. -/
structure RxStep where
  rx : RxState
  corrected : Bool := false
  event : Option PortEvent := none
  deriving DecidableEq, Repr

/-! ## One symbol (R19 to R25) -/

/-- The receive state after a symbol taken in HUNTING, or one that has ended an item (R19, R22): FRAME_START and SPAN_START
begin an item, and every other symbol leaves the receiver HUNTING. -/
def RxState.after : RxSymbol → RxState
  | some .frameStart => .header []
  | some .spanStart => .span []
  | some .idle | some .frameEnd | some .abort | some (.data _) | none => .hunting

/-- What a symbol that does not belong where it stands in a frame makes of the frame (R22). -/
def DiscardCause.of : RxSymbol → DiscardCause
  | none => .lineCode
  | some .abort => .aborted
  | some .idle | some .frameStart | some .frameEnd | some .spanStart | some (.data _) => .delimiter

/-- The frame in progress ends early at this symbol (R22). -/
def RxStep.cut (x : RxSymbol) : RxStep := { rx := RxState.after x, event := some (.discarded (DiscardCause.of x)) }

/-- The ninth header byte has come (R20, R21). -/
def RxStep.ninth (bytes : List Byte) : RxStep :=
  match readHeader (headerBits bytes) with
  | .passes f n corrected => { rx := .body f n corrected [], corrected := corrected }
  | .discarded => { rx := .hunting, event := some (.discarded .headerDiscarded) }
  | .invalid corrected => { rx := .hunting, corrected := corrected, event := some (.discarded .headerInvalid) }

/-- The third data symbol of a span word has come (R25). -/
def RxStep.third (bytes : List Byte) : RxStep :=
  match readSpanWord (wordAt bytes 0) (byteAt bytes 2) with
  | some (sender, st, fault) => { rx := .hunting, event := some (.spanWord sender st fault) }
  | none => { rx := .hunting, event := some (.spanInvalid false) }

/-- A receiver takes a symbol (R19). -/
def RxState.take (x : RxSymbol) : RxState → RxStep
  | .hunting => { rx := RxState.after x, event := if x = none then some .codeError else none }
  | .header bytes =>
    match x with
    | some (.data b) => if bytes.length < 8 then { rx := .header (bytes ++ [b]) } else RxStep.ninth (bytes ++ [b])
    | x => RxStep.cut x
  | .body f n corrected bytes =>
    match x with
    | some (.data b) =>
      if bytes.length < bodySymbols n then { rx := .body f n corrected (bytes ++ [b]) } else RxStep.cut x
    | some .frameEnd =>
      if bytes.length < bodySymbols n then RxStep.cut x
      else { rx := .hunting, event := some (.frame f corrected (bytes.take n) (crcBits (bytes.drop n))) }
    | x => RxStep.cut x
  | .span bytes =>
    match x with
    | some (.data b) => if bytes.length < 2 then { rx := .span (bytes ++ [b]) } else RxStep.third (bytes ++ [b])
    | x => { rx := RxState.after x, event := some (.spanInvalid (x == none)) }

/-! ## The symbols of an item -/

def dataSymbols (bytes : List Byte) : List RxSymbol := bytes.map (fun b => some (.data b))

/-- The symbols that complete a frame (R18): those up to the end of its header, its payload and CRC, and FRAME_END. -/
def frameSymbols (header : List RxSymbol) (payload crc : List Byte) : List RxSymbol :=
  header ++ dataSymbols (payload ++ crc) ++ [some .frameEnd]

/-- The symbols of a span word that is received to its end (R18): those up to its check, and the check. -/
def spanSymbols (content : List RxSymbol) (check : Byte) : List RxSymbol := content ++ dataSymbols [check]

/-! ## The port takes symbols -/

def Pins.setSignal (p : Port) (high : Bool) (x : Pins) : Pins :=
  match p with
  | .west => { x with signalWest := high }
  | .east => { x with signalEast := high }

def Pins.signal (p : Port) (x : Pins) : Bool :=
  match p with
  | .west => x.signalWest
  | .east => x.signalEast

/-- The receiver takes what arrives: the part works and signal present is high (R1, R26, R35). -/
def State.receiving (p : Port) (s : State) : Bool := s.awake && Pins.signal p s.pins

def State.setRx (p : Port) (x : RxState) (s : State) : State := s.modPort p (fun r => { r with rx := x })

def State.portCount (p : Port) (c : PortCounter) (s : State) : State := s.count (.port p c)

/-- The count of a corrected header (R20). -/
def State.countCorrected (p : Port) (corrected : Bool) (s : State) : State :=
  if corrected then s.portCount p .headerCorrected else s

/-- A port receives a symbol: the event it brings, and the state. A corrected header is counted with its ninth byte (R20). -/
def State.receive (p : Port) (x : RxSymbol) (s : State) : Option PortEvent × State :=
  if s.receiving p then
    let r := (s.port p).rx.take x
    (r.event, (s.countCorrected p r.corrected).setRx p r.rx)
  else (none, s)

/-- A port receives symbols of which the last, and only it, brings an event; none for any other symbols. -/
def State.received (p : Port) (symbols : List RxSymbol) (s : State) : Option (PortEvent × State) :=
  untilEvent (State.receive p) symbols s

/-- The ports receive symbols of which none brings an event; none for any other symbols. -/
def State.receiveQuietly (symbols : List (Port × RxSymbol)) (s : State) : Option State :=
  withoutEvent (fun x => State.receive x.1 x.2) symbols s

/-- The symbols of a LINE_PULSE or a SIGNAL_LOSS: they are received where none of them brings a row of its own, and not at all
elsewhere (log 7). -/
def State.receiveAll (symbols : List (Port × RxSymbol)) (s : State) : State := (s.receiveQuietly symbols).getD s

end Sys2Proof.Machine
end

