-- ==== Sys2Proof/Machine/Ports.lean ====
section
/-! DEFINITION. The Line Ports (chapter 2) and the Fold Controller's link states (chapter 3). -/

namespace Sys2Proof.Machine

/-! ## Transmitting -/

/-- The span state and far-end fault flag that a link record gives (R37). -/
def PortRec.spanNow (r : PortRec) : SpanState × Bool :=
  match r.link with
  | .down => (.notReady, !r.hearing)
  | .settling => (.notReady, false)
  | .joining => (.ready, false)
  | .up => (.joined, false)
  | .isolated => (.notReady, true)

/-- A span word is begun: its content is taken from the link record at this moment (R27, R37). -/
def State.beginSpan (p : Port) (s : State) : State :=
  s.modPort p (fun r =>
    let (st, fault) := r.spanNow
    { r with
      tx := .span (spanContent s.image.address st fault), aborts := false, spanSent := st, faultSent := fault })

/-- The transmitter has ended a frame: it sends an owed span word, or is IDLE (R28, R30). -/
def State.afterFrame (p : Port) (s : State) : State :=
  if (s.port p).owesSpan then s.beginSpan p else s.modPort p (fun r => { r with tx := .idle, aborts := false })

/-- A port comes to owe a span word, and begins it if it is IDLE (R27). -/
def State.oweSpan (p : Port) (s : State) : State :=
  let s := s.modPort p (fun r => { r with owesSpan := true })
  if (s.port p).tx = .idle then s.beginSpan p else s

/-- The frame on the wire has been sent (R28). -/
def State.frameSent (p : Port) (s : State) : State :=
  match (s.port p).tx with
  | .frame h => ((s.portCount p .framesOut).releaseHeld h).afterFrame p
  | _ => s

/-- The span word has been sent and the debt is paid (R27). -/
def State.spanSent (p : Port) (s : State) : State :=
  match (s.port p).tx with
  | .span _ => s.modPort p (fun r => { r with tx := .idle, aborts := false, owesSpan := false })
  | _ => s

/-! ## Folds (R30, R46, R47, R51) -/

/-- The frame on the wire is abandoned: ABORT is sent in place of its rest, before an owed span word or IDLE (R30). -/
def State.abandonFrame (p : Port) (s : State) : State :=
  match (s.port p).tx with
  | .frame h =>
    (((s.portCount p .cut).releaseHeld h).afterFrame p).modPort p (fun r => { r with aborts := true })
  | _ => s

/-- A side has folded: the frame on the wire is abandoned, then the transit queues are turned back, urgent first (R47;
log 12). -/
def State.foldOnset (p : Port) (s : State) : State :=
  let d := Port.departure p
  let s := (s.report .foldChange).abandonFrame p
  let waiting := s.queues.transit d
  (s.modQueues (Queues.clearTransit d)).turnBackAll d waiting

/-- A port's link leaves what it was for DOWN or ISOLATED by `f`; leaving UP is counted and folds the side (R46, R47,
R53). -/
def State.linkFalls (p : Port) (f : PortRec → PortRec) (s : State) : State :=
  let wasUp := (s.port p).link == .up
  let s := s.modPort p f
  if wasUp then (s.portCount p .linkDowns).foldOnset p else s

/-- The link state becomes DOWN; the neighbour address becomes 0 (R25, R39 to R41). -/
def State.linkDown (p : Port) (cause : FoldCause) (s : State) : State :=
  s.linkFalls p (fun r => { r with link := .down, cause := cause, neighbour := 0, holdOff := Timer.stopped })

/-- The link state becomes UP: the side unfolds and its arbiter's wait ends (R40, R43, R51). -/
def State.linkUp (p : Port) (s : State) : State :=
  (s.modPort p (fun r => { r with link := .up, lineWait := none })).portCount p .joins

/-- The link state becomes SETTLING with the hold-off armed (R39, R45). -/
def PortRec.settle (holdOff : Nat) (r : PortRec) : PortRec := { r with link := .settling, holdOff := Timer.arm holdOff }

/-- The link state becomes ISOLATED (R44). -/
def State.linkIsolated (p : Port) (s : State) : State :=
  s.linkFalls p (fun r => { r with
    link := .isolated
    cause := .isolation
    holdOff := Timer.stopped
    recovery := if r.hearing then Timer.arm s.image.recovery else Timer.stopped })

/-! ## The error score (R31 to R33) -/

/-- The changes of R31. -/
inductive ScoreChange where
  | better | slightly | worse
  deriving DecidableEq, Repr

/-- The score after a change: 0 to 255. -/
def ScoreChange.apply (c : ScoreChange) (score : Nat) : Nat :=
  match c with
  | .better => score - 1
  | .slightly => min (score + 1) 255
  | .worse => min (score + 6) 255

/-- The error state after a score change (R32). -/
def State.nextErrorState (e : ErrorState) (score : Nat) (s : State) : ErrorState :=
  match e with
  | .isolated => .isolated
  | .active =>
    if s.image.isolation ≤ score then .isolated else if s.image.warning ≤ score then .warning else .active
  | .warning =>
    if s.image.isolation ≤ score then .isolated else if score < s.image.warningClear then .active else .warning

/-- A score change with what follows from it. In ISOLATED the score does not change. -/
def State.scoreChange (p : Port) (c : ScoreChange) (s : State) : State :=
  let r := s.port p
  if r.errorState = .isolated then s
  else
    let score := c.apply r.score
    let e := s.nextErrorState r.errorState score
    let s := s.modPort p (fun r => { r with score := score, errorState := e })
    match r.errorState, e with
    | .active, .warning => s.report .portWarning
    | _, .isolated => (s.report .portIsolated).linkIsolated p
    | _, _ => s

/-! ## Received frames (R20 to R24, R43) -/

/-- The link state decides what becomes of a complete frame (R43). -/
def State.acceptFrame (p : Port) (f : Frame) (corrected : Bool) (s : State) : State :=
  match (s.port p).link with
  | .down | .settling | .isolated => s.portCount p .notAccepted
  | .joining => (s.linkUp p).takeIn (Port.arrival p) f corrected
  | .up => s.takeIn (Port.arrival p) f corrected

/-- A frame that ends where it should, with its payload CRC checked (R23, R24, R31). The score changes before the link
state is read (log 10). -/
def State.completeFrame (p : Port) (f : Frame) (corrected : Bool) (payload : List Byte) (crc : BitVec 32) (s : State) :
    State :=
  let fails := payload ≠ [] ∧ crc32 payload ≠ crc
  let s := if fails then s.portCount p (if f.damaged then .damagedPassing else .payloadDamaged) else s
  let s := s.portCount p .framesIn
  let change : ScoreChange :=
    if fails ∧ !f.damaged then .worse else if corrected then .slightly else .better
  let frame := { f with
    payload := payload
    crc := if payload = [] then 0 else crc
    damaged := f.damaged || decide fails }
  (s.scoreChange p change).acceptFrame p frame corrected

/-- What ended a frame early is counted, and scored but for ABORT (R20 to R22, R31). -/
def State.discard (p : Port) (cause : DiscardCause) (s : State) : State :=
  let s := s.portCount p cause.counter
  if cause = .aborted then s else s.scoreChange p .worse

/-! ## Span words (R25, R38 to R40, R45) -/

/-- An invalid span word: counted, scored, and a running recovery timer of an ISOLATED port armed again. A line-code error
that ended it is counted as one as well (R34; log 20). -/
def State.spanInvalid (p : Port) (codeError : Bool) (s : State) : State :=
  let s := if codeError then s.portCount p .lineCodeErrors else s
  let s := (s.portCount p .spanErrors).scoreChange p .worse
  s.modPort p (fun r =>
    if r.link = .isolated ∧ r.recovery.running then { r with recovery := Timer.arm s.image.recovery } else r)

/-- The loss timer and the hearing flag at a span word (R38); hearing that begins at an ISOLATED port arms the recovery
timer (R45). -/
def PortRec.hear (lossLimit recovery : Nat) (r : PortRec) : PortRec :=
  { r with
    loss := Timer.arm lossLimit
    hearing := true
    recovery := if r.link = .isolated ∧ !r.hearing then Timer.arm recovery else r.recovery }

/-- A valid, not self-heard span word is taken by the rule of the link state (R39, R40). -/
def State.spanTaken (p : Port) (st : SpanState) (fault : Bool) (s : State) : State :=
  match (s.port p).link, fault, st with
  | .down, false, _ => s.modPort p (PortRec.settle s.image.joinHoldOff)
  | .down, true, _ => s
  | .settling, true, _ => s.linkDown p .farEndFault
  | .settling, false, _ => s
  | .joining, true, _ => s.linkDown p .farEndFault
  | .joining, false, .notReady => s
  | .joining, false, .ready => s.linkUp p
  | .joining, false, .joined => s.linkUp p
  | .up, true, _ => s.linkDown p .farEndFault
  | .up, false, .notReady => s.linkDown p .neighbourNotReady
  | .up, false, .ready => s
  | .up, false, .joined => s
  | .isolated, _, _ => s

/-- A valid span word: the neighbour address, then the Fold Controller. In TRANSPARENT no span word is self-heard (R25,
R36, R38). -/
def State.spanValid (p : Port) (sender : Addr) (st : SpanState) (fault : Bool) (s : State) : State :=
  let s := (s.modPort p (fun r => { r with neighbour := sender })).portCount p .spanWordsIn
  if s.start ≠ .transparent ∧ sender = s.image.address then s.portCount p .selfHeard
  else (s.modPort p (PortRec.hear s.image.lossLimit s.image.recovery)).spanTaken p st fault

/-! ## Signal present (R26) -/

/-- SIGNAL_LOSS: the fall is counted, and the item in progress is discarded as R22 gives. A span word in progress is an
invalid one (log 33). -/
def State.signalLost (p : Port) (s : State) : State :=
  let s' := (s.portCount p .signalLoss).setRx p .hunting
  match (s.port p).rx with
  | .hunting => s'
  | .header _ | .body _ _ _ _ => s'.discard p .delimiter
  | .span _ => s'.spanInvalid p false

/-! ## Timers (R41, R42, R45) -/

/-- LOSS_TIMER_EXPIRY. -/
def State.lossExpires (p : Port) (s : State) : State :=
  let s := s.modPort p (fun r => { r with loss := r.loss.take, hearing := false })
  match (s.port p).link with
  | .up | .joining | .settling => s.linkDown p .loss
  | .down => s
  | .isolated => s.modPort p (fun r => { r with recovery := Timer.stopped })

/-- HOLD_OFF_EXPIRY. -/
def State.holdOffExpires (p : Port) (s : State) : State :=
  s.modPort p (fun r => { r with link := .joining, holdOff := r.holdOff.take })

/-- RECOVERY_TIMER_EXPIRY: the isolation ends. -/
def State.recoveryExpires (p : Port) (s : State) : State :=
  s.modPort p (fun r => PortRec.settle s.image.joinHoldOff
    { r with score := 0, errorState := .active, recovery := r.recovery.take })

end Sys2Proof.Machine
end

