-- ==== Sys2Proof/Machine/Start.lean ====
section
/-! DEFINITION. Start-up (chapter 1): full reset, the reading of the image, the start of the blocks, TRANSPARENT, and the
service restart. -/

namespace Sys2Proof.Machine

/-! ## Signs at a start (R178, R189) -/

/-- The sign takes its selection, and a SHOW of it starts. -/
def State.showSelection (i : Fin 4) (s : State) : State :=
  (s.modSign i (fun r => { r with selection := r.select s.image s.signs.conditions })).startShow i

def State.showSelections : List (Fin 4) → State → State
  | [], s => s
  | i :: t, s => State.showSelections t (s.showSelection i)

/-- The zone levels are computed and each configured sign is sent a SHOW of its selection (R178). -/
def State.startSigns (s : State) : State :=
  if s.image.roles.sign = .signs then
    let s := s.setZone
    s.showSelections s.ownSigns
  else s

/-- A sign record as a restart at SIGNS leaves it, before its SHOW: TEST removed, OK and IDLE, the show counter kept. -/
def SignRec.restarted (r : SignRec) : SignRec := { centre := r.centre, incident := r.incident, showCounter := r.showCounter }

/-- The records of a restart: those of signs beyond the new number are cleared. -/
def Signs.restarted (count : Nat) (u : Signs) : Signs :=
  { u with
    records := allFour.foldl (fun t i =>
      t.put Fin.val {} i (if i.val < count then (t.get {} i).restarted else {})) u.records }

/-- SHOW messages. -/
def Message.isShow (m : Message) : Bool := m.kind == kindShow

/-- Queued SHOWs not yet begun are removed; one being sent completes with no effect (R189). -/
def State.withdrawShows (s : State) : State :=
  (s.withdrawMessages .sign Message.isShow).modLink .sign (LinkRec.disown Message.isShow)

/-- The Sign Unit's restart state, with the new image in force; `old` is the sign role before (R189). -/
def State.restartSigns (old : SignRole) (s : State) : State :=
  match old, s.image.roles.sign with
  | .signs, .signs =>
    ((s.withdrawShows.modSigns (Signs.restarted s.image.roles.signCount)).incidentClears).startSigns
  | .centre, .centre => (s.modSigns (fun u => { u with buffer := none })).dropClass2 (fun h => h.frame.kind == .sign)
  | _, _ =>
    let s := s.dropClass2 (fun h => h.frame.kind == .sign)
    let s := (s.withdrawMessages .sign (fun _ => true)).modLink .sign (LinkRec.disown Message.isShow)
    (s.modSigns (fun _ => {})).startSigns

/-! ## Full reset and the start of the blocks (R1, R5, R6) -/

/-- FULL_RESET: everything at its reset value; the input levels and the waiting commands are not the part's. -/
def State.fullReset (s : State) : State := { State.reset with pins := s.pins, pending := s.pending }

/-- The blocks start with an image, in RUNNING or TRANSPARENT: every block takes its full-reset state and arms its
periodic timers. The loader's read-failure counter is kept. -/
def State.blocksStart (start : StartState) (img : Image) (origin : ShareOrigin) (clamped : Nat) (s : State) : State :=
  State.startSigns { State.reset with
    start := start
    image := img
    loader := { clamped := clamped }
    pins := s.pins
    pending := s.pending
    store := Store.fresh img.shares origin
    holdback := { period := Timer.armRepeating img.holdbackPeriod }
    journal := { park := Timer.armRepeating img.parkInterval }
    peers := { timer := if start = .transparent then Timer.stopped else Timer.armRepeating img.presenceInterval }
    weather := { report := img.reportTimer }
    counters := s.counters.filter (fun e => e.1 == .station .loaderReadFailures) }

/-- TRANSPARENT (R3, R6): the defaults, address 0, no role; CONFIG_FAULT latches. -/
def State.enterTransparent (s : State) : State := (s.blocksStart .transparent {} .defaults 0).report .configFault

/-! ## The service restart (R7, R8, R84) -/

/-- The messages that the links are receiving will be discarded without a count (R7). -/
def State.dropReceptions (s : State) : State :=
  (((s.modLink .toll LinkRec.drop).modLink .sign LinkRec.drop).modLink .weather LinkRec.drop).modLink .service LinkRec.drop

/-- SERVICE_RESTART: RE_READING begins (R7). -/
def State.beginRestart (j : Job) (s : State) : State :=
  (((s.setSlot (some { j with stage := .restarting })).notePeers.modLoader (fun l => { clamped := l.clamped })).dropReceptions).modStart
    (fun _ => .reReading)

/-- A new image keeps the address and the three pulse bits of the last full reset (R8). -/
def Image.succeeds (old new : Image) : Image :=
  { new with address := old.address, lineBit := old.lineBit, serviceBit := old.serviceBit, sampleBit := old.sampleBit }

/-- Whether the store could hold what it holds under new shares (R84). -/
def Store.fits (shares : PerUser Share) (st : Store) : Bool :=
  allUsers.all (fun u => decide ((st.users.get u).count ≤ (shares.get u).maximum)) &&
    decide ((allUsers.map (fun u => (shares.get u).guarantee - (st.users.get u).count)).sum ≤ st.free.length)

/-- The store with new shares in force. -/
def Store.adopt (shares : PerUser Share) (origin : ShareOrigin) (st : Store) : Store :=
  let take (u : User) : UserRec :=
    { (st.users.get u) with guarantee := (shares.get u).guarantee, maximum := (shares.get u).maximum }
  { st with
    users := ⟨take .transitRise, take .transitFall, take .urgentOut, take .journal, take .ordinaryOut, take .weatherOut,
      take .receive⟩
    origin := origin }

/-- The shares of the new image are adopted, or the old ones kept (R84). -/
def State.takeShares (shares : PerUser Share) (origin : ShareOrigin) (s : State) : State :=
  if s.store.fits shares then s.modStore (Store.adopt shares origin)
  else (s.modStore (fun st => { st with origin := .kept })).tally .sharesKept

/-- The blocks apply their restart states (R8). `raw` is the new image, none when the image in force is kept. The order is
the one that R73, R84, R95 and R100 ask for: the shares are taken when every cell that the restart frees is free, which the
waiting PRESENCE frame's is the last to be, and the new PRESENCE frame is made under them (log 6). -/
def State.applyRestart (old : SignRole) (raw : Option (List Byte)) (s : State) : State :=
  let s := s.restartReturns.restartPhone.restartSwitchboard.restartJournal.restartCollector.restartWeather
  let s := ((((s.restartSigns old).restartMaint raw.isSome).restartHoldback).heldNotices).dropPresence
  let s := match raw with
    | some bytes => s.takeShares (orderShares (rawShares bytes)).1 (orderShares (rawShares bytes)).2
    | none => s
  s.restartPeers

/-- Work goes on in RUNNING: the journal makes a send pass, each link's transmitter looks at its queue, and the starvation
timer is armed if both conditions hold (R16, R91, R152). -/
def State.resume (s : State) : State :=
  let s := (s.modStart (fun _ => .running)).sendPass
  let s := (((s.linkStart .toll).linkStart .sign).linkStart .weather).linkStart .service
  s.modHoldback (fun h => { h with
    starvation := if s.queues.starving then Timer.arm s.image.starveLimit else Timer.stopped })

/-- SERVICE_RESTART_END (R8). Where a new image comes into force, the count of clamped fields (R4) is that of the new raw image
whole, its pulse bits included, and nothing is counted for the old pulse bits it keeps (DESIGN CHOICE, log 58). -/
def State.endRestart (raw : Option (List Byte)) (s : State) : State :=
  let old := s.image.roles.sign
  let s := match raw with
    | some bytes =>
      (s.modImage (fun i => i.succeeds (imageOf bytes))).modLoader (fun _ => { clamped := clampedCount bytes })
    | none => s.modLoader (fun l => { clamped := l.clamped })
  let s := s.dropLatches.clearAllCounters
  let s := if raw.isSome then s else s.report .configFault
  (s.applyRestart old raw).resume

/-! ## Reading the image (R2, R3) -/

/-- The image passes (R3). -/
def State.imageAccepted (bytes : List Byte) (s : State) : State :=
  if s.start = .reReading then s.endRestart (some bytes)
  else s.blocksStart .running (imageOf bytes) (orderShares (rawShares bytes)).2 (clampedCount bytes)

/-- The image fails, or the read has failed (R3). -/
def State.imageFailed (s : State) : State := if s.start = .reReading then s.endRestart none else s.enterTransparent

/-- A failed attempt: counted, and the third ends the read (R2). -/
def State.attemptFailed (s : State) : State :=
  let s := (s.tally .loaderReadFailures).modLoader (fun l => { l with fails := l.fails + 1, paused := true })
  if Config.readAttempts ≤ s.loader.fails then s.imageFailed else s

/-- READ_ATTEMPT_DONE. -/
def State.attemptDone (r : ReadResult) (s : State) : State :=
  match r with
  | .bytes image => if imagePasses image then s.imageAccepted image else s.imageFailed
  | .dataLineStuck | .noBusAck | .noWordAck => s.attemptFailed

/-- A read attempt is under way: READING or RE_READING, not in the pause between attempts. -/
def State.reads (s : State) : Bool := (s.start == .reading || s.start == .reReading) && !s.loader.paused

end Sys2Proof.Machine
end

