-- ==== Sys2Proof/Machine/Pulses.lean ====
section
/-! DEFINITION. The Timebase and its pulses (R9, R10): every timer counts the pulses of its source. -/

namespace Sys2Proof.Machine

/-! ## The counter -/

/-- Microseconds from counter value `t` to the next instant at which bit `n` goes from 0 to 1. -/
def untilPulse (n t : Nat) : Nat := (2 ^ n + 2 ^ (n + 1) - 1 - t % 2 ^ (n + 1)) % 2 ^ (n + 1) + 1

/-- Bit `n` has just gone from 0 to 1. -/
def pulsed (n : Nat) (t : BitVec 24) : Bool := t.toNat % 2 ^ (n + 1) == 2 ^ n

/-! ## Line pulses -/

def PortRec.tick (r : PortRec) : PortRec :=
  { r with loss := r.loss.tick, holdOff := r.holdOff.tick, recovery := r.recovery.tick }

/-- The gap timers of the record links count a line pulse (R14). -/
def State.gapTick (s : State) : State :=
  (((s.modLink .toll LinkRec.tick).modLink .sign LinkRec.tick).modLink .weather LinkRec.tick).modLink .service LinkRec.tick

/-- A line pulse: the timers of both ports and of the links count it, and each port comes to owe a span word (R27). The
loss, hold-off and recovery timers that the pulse ends expire after it, so a span word begun at the pulse shows the link record
before the expiry (DESIGN CHOICE, log 59). -/
def State.linePulse (s : State) : State :=
  (((s.gapTick.modPort .west PortRec.tick).modPort .east PortRec.tick).oweSpan .west).oweSpan .east

/-! ## Service pulses -/

def Line.tick (l : Line) : Line :=
  { l with retry := l.retry.tick, supervision := l.supervision.tick, clearing := l.clearing.tick, ring := l.ring.tick }

def Channel.tick (r : Channel) : Channel :=
  { r with
    refresh := r.refresh.tick, supervision := r.supervision.tick, ring := r.ring.tick, clearing := r.clearing.tick }

def Holdback.tick (h : Holdback) : Holdback :=
  { h with
    starvation := h.starvation.tick
    repeating := h.repeating.tick
    entries := h.entries.map (fun e => { e with expiry := e.expiry.tick })
    period := h.period.tick }

def Phone.tick (p : Phone) : Phone := { p with loss := p.loss.tick, lines := p.lines.mapValues Line.tick }

def Switchboard.tick (b : Switchboard) : Switchboard :=
  { b with
    channels := b.channels.mapValues Channel.tick
    waiting := b.waiting.map (fun w => { w with refresh := w.refresh.tick }) }

def Journal.tick (j : Journal) : Journal :=
  { j with entries := j.entries.map (fun e => { e with backoff := e.backoff.tick }), park := j.park.tick }

def Maint.tick (m : Maint) : Maint := { m with wait := m.wait.map (fun w => { w with timer := w.timer.tick }) }

def Peers.tick (t : Peers) : Peers := { t with timer := t.timer.tick }

/-- The retry timer of a sign counts service pulses while the sign was OK at its arming (R184). -/
def SignRec.serviceTick (r : SignRec) : SignRec := if r.retryOnSample then r else { r with retry := r.retry.tick }

/-- The service timers count a pulse. -/
def State.serviceTick (s : State) : State :=
  ((((((((s.modReturns (List.map (fun e => { e with deadline := e.deadline.tick }))).modHoldback Holdback.tick).modPeers
    Peers.tick).modPhone Phone.tick).modSwitchboard Switchboard.tick).modJournal Journal.tick).modMaint
    Maint.tick).modSigns (fun u => { u with records := u.records.mapValues SignRec.serviceTick }))

/-- A service pulse: the timers count it and ACK_N is sampled (R199). -/
def State.servicePulse (low : Bool) (s : State) : State := s.serviceTick.ackSample low

/-! ## Sample pulses -/

/-- The timers of a sign's entries, and its retry timer while it counts sample pulses. -/
def SignRec.sampleTick (r : SignRec) : SignRec :=
  { r with
    centre := r.centre.map (fun c => { c with lifetime := c.lifetime.tick })
    test := r.test.map (fun t => { t with duration := t.duration.tick })
    retry := if r.retryOnSample then r.retry.tick else r.retry }

def Signs.sampleTick (u : Signs) : Signs :=
  { u with records := u.records.mapValues SignRec.sampleTick, incidentTimer := u.incidentTimer.tick }

/-- A sample pulse: the timers count it and a STATION does its sample work (R161). -/
def State.samplePulse (s : State) : State :=
  ((s.modWeather (fun w => { w with report := w.report.tick })).modSigns Signs.sampleTick).sampleWork

/-! ## Time passes (R9; log 3) -/

/-- The pulses that fall at the instant that the counter shows: one for each source whose bit has just risen. -/
def State.pulsesNow (s : State) : State :=
  let t := s.timebase
  let s := if pulsed s.image.lineBit t then s.linePulse else s
  let s := if pulsed s.image.serviceBit t then s.servicePulse s.pins.ackLow else s
  if pulsed s.image.sampleBit t then s.samplePulse else s

/-- One microsecond passes. -/
def State.microsecond (s : State) : State := (s.modTimebase (fun t => t + 1)).pulsesNow

/-- Microseconds to the next instant at which a pulse of any source falls. -/
def State.untilAny (s : State) : Nat :=
  min (untilPulse s.image.lineBit s.timebase.toNat)
    (min (untilPulse s.image.serviceBit s.timebase.toNat) (untilPulse s.image.sampleBit s.timebase.toNat))

/-- Time passes to that instant, and its pulses happen. -/
def State.nextPulses (s : State) : State := (s.modTimebase (fun t => t + BitVec.ofNat 24 s.untilAny)).pulsesNow

/-- Time passes from one pulse to the next until bit `n` has risen; no pulse on the way is left out. -/
def State.runTo (n : Nat) : Nat → State → State
  | 0, s => s
  | k + 1, s => if pulsed n s.nextPulses.timebase then s.nextPulses else State.runTo n k s.nextPulses

/-- The next pulse of a bit is reached. At least a microsecond lies between one instant of pulses and the next, which bounds
their number. -/
def State.reach (n : Nat) (s : State) : State := s.runTo n (untilPulse n s.timebase.toNat)

/-- What the part does while no command waits. The counter is held at 0 in HELD and READING (R1). -/
def State.idle (s : State) : State := if s.awake then s.microsecond else s

end Sys2Proof.Machine
end

