-- ==== Sys2Proof/Machine/ExecStart.lean ====
section
/-! DEFINITION. The meanings of the start-up rows, the pulses and the single transitions of the weather computation. Each
row names an event; its effect is had in the states in which the manual lets the event come about, and in any other the
state stays as it is (log 1). -/

namespace Sys2Proof.Machine

open Host

/-- A command's answer: its effect where the event it names can come about, the same state elsewhere (log 1). -/
def whenever (s : State) (can : Bool) (effect : State → State) : Outcome State Fault Refusal :=
  .next (if can then effect s else s)

/-- The answer of a row that what is received brings: its effect on the state that the reception leaves, where the event that
it brings is one the row names; the same state elsewhere (logs 1 and 7). -/
def whenBrought {ε : Type} (s : State) (brought : Option (ε × State)) (effect : ε → Option (State → State)) :
    Outcome State Fault Refusal :=
  .next (match brought with
    | some (e, t) => match effect e with
      | some f => f t
      | none => s
    | none => s)

/-- FULL_RESET (R1). -/
def execFullReset (s : State) : Outcome State Fault Refusal := .next s.fullReset

/-- RESET_RELEASE (R1): the start state becomes READING and an image read begins. -/
def execResetRelease (s : State) : Outcome State Fault Refusal :=
  whenever s (s.start == .held) (fun s => (s.modStart (fun _ => .reading)).modLoader (fun _ => {}))

/-- READ_ATTEMPT_DONE (R2 to R8). -/
def execReadAttemptDone (answers : BusAnswers) (s : State) : Outcome State Fault Refusal :=
  whenever s (s.reads && answers.fits) (State.attemptDone (BusAnswers.result answers))

/-- READ_RETRY_PAUSE_END (R2). -/
def execReadRetryPauseEnd (s : State) : Outcome State Fault Refusal :=
  whenever s ((s.start == .reading || s.start == .reReading) && s.loader.paused)
    (State.modLoader (fun l => { l with paused := false }))

/-- LINE_PULSE (R9, R10, R27): the characters that the links have received and the symbols that the ports have, then the line
pulse (log 7). -/
def execLinePulse (input : QuietInput) (s : State) : Outcome State Fault Refusal :=
  whenever s s.awake (fun s => ((s.hearAll input.chars).receiveAll input.symbols).reach s.image.lineBit)

/-- ACK_SAMPLE: a service pulse with its sample of ACK_N (R9, R10, R199). -/
def execAckSample (low : Bool) (s : State) : Outcome State Fault Refusal :=
  whenever s s.awake (fun s => (s.modPins (fun p => { p with ackLow := low })).reach s.image.serviceBit)

/-- SAMPLE_WORK: a sample pulse with the weather computation of a STATION (R9, R10, R160 to R171). -/
def execSampleWork (s : State) : Outcome State Fault Refusal :=
  whenever s s.awake (fun s => s.reach s.image.sampleBit)

/-- STALE_LIMIT_REACHED (R164; log 15). -/
def execStaleLimitReached (q : Quantity) (s : State) : Outcome State Fault Refusal := .next (s.staleLimitReached q)

/-- LEVEL_RISE (R169; log 15). -/
def execLevelRise (c : Condition) (s : State) : Outcome State Fault Refusal := .next (s.levelRise c)

/-- LEVEL_FALL (R169; log 15). -/
def execLevelFall (c : Condition) (s : State) : Outcome State Fault Refusal := .next (s.levelFall c)

/-- STALE_CLEAR (R168; log 15). -/
def execStaleClear (c : Condition) (s : State) : Outcome State Fault Refusal := .next (s.staleClears c)

end Sys2Proof.Machine
end

