-- ==== Sys2Proof/Machine/ExecLinks.lean ====
section
/-! DEFINITION. The meanings of the record links' rows (chapter 1, 1.3) and of the messages they bring. -/

namespace Sys2Proof.Machine

open Host

/-- The answer of a row that ends a received message, by the event that the last of the characters, and only it, brings. -/
def whenHeard (s : State) (l : Link) (chars : List LinkChar) (effect : LinkEvent → Option (State → State)) :
    Outcome State Fault Refusal :=
  whenBrought s (s.heard l chars) effect

/-- The same for a good message of one kind: its tag and body are handed to the job. -/
def whenMessage (s : State) (l : Link) (kind : Byte) (chars : List LinkChar) (job : Byte → List Byte → State → State) :
    Outcome State Fault Refusal :=
  whenHeard s l chars (fun e => match e with
    | .message k tag body => if k = kind then some (job tag body) else none
    | .malformed | .unknown | .overrun => none)

/-- LINK_MESSAGE_MALFORMED (R14). -/
def execLinkMessageMalformed (l : Link) (chars : List LinkChar) (s : State) : Outcome State Fault Refusal :=
  whenHeard s l chars (fun e => if e = .malformed then some (State.count (.link l .malformed)) else none)

/-- LINK_GAP_TIMEOUT (R14). -/
def execLinkGapTimeout (l : Link) (s : State) : Outcome State Fault Refusal :=
  whenever s (s.link l).gapOver (State.gapExpires l)

/-- LINK_MESSAGE_UNKNOWN (R13). -/
def execLinkMessageUnknown (l : Link) (chars : List LinkChar) (s : State) : Outcome State Fault Refusal :=
  whenHeard s l chars (fun e => if e = .unknown then some (State.count (.link l .unknown)) else none)

/-- LINK_OVERRUN (R15). -/
def execLinkOverrun (l : Link) (chars : List LinkChar) (s : State) : Outcome State Fault Refusal :=
  whenHeard s l chars (fun e => if e = .overrun then some (State.count (.link l .overrun)) else none)

/-- LINK_READY_IN_HIGH: the ready input takes a level, and a rise starts the oldest queued message (R16; log 8). -/
def execLinkReadyInHigh (l : Link) (high : Bool) (s : State) : Outcome State Fault Refusal :=
  .next (let s := s.modPins (fun p => { p with ready := p.ready.set l high })
    if high then s.linkStart l else s)

/-- The job whose message has been sent is told (R16, R79, R144, R184, R188). -/
def State.messageSent (m : Message) (s : State) : State :=
  match m.holder with
  | .cell u n => s.freeCell u n
  | .sign i => s.showSent i
  | .notice | .outcome | .nobody => s

/-- The message being sent leaves the queue, its job is told, and the transmitter looks at the queue again. -/
def State.sentHead (l : Link) (s : State) : State :=
  match (s.link l).queue with
  | m :: rest => ((s.modLink l (fun r => { r with queue := rest, sending := false })).messageSent m).linkStart l
  | [] => s.modLink l (fun r => { r with sending := false })

/-- LINK_MESSAGE_SENT (R16). -/
def execLinkMessageSent (l : Link) (s : State) : Outcome State Fault Refusal :=
  whenever s (s.link l).sending (State.sentHead l)

/-- RECORD (R143). -/
def execRecord (chars : List LinkChar) (s : State) : Outcome State Fault Refusal :=
  whenMessage s .toll 0x01 chars (fun _ body => State.takeRecord body)

/-- SAMPLE (R160). -/
def execSample (chars : List LinkChar) (s : State) : Outcome State Fault Refusal :=
  whenMessage s .weather 0x21 chars (fun _ body => State.takeSample body)

/-- SHOWN (R177, R185). -/
def execShown (chars : List LinkChar) (s : State) : Outcome State Fault Refusal :=
  whenMessage s .sign 0x12 chars (fun _ body s =>
    match s.signOf body with
    | some i => s.takeShown i (byteAt body 1)
    | none => s.tally .signMsgBad)

/-- SIGN_FAULT (R177, R186). -/
def execSignFault (chars : List LinkChar) (s : State) : Outcome State Fault Refusal :=
  whenMessage s .sign 0x13 chars (fun _ body s =>
    match s.signOf body with
    | some i => s.takeSignFault i
    | none => s.tally .signMsgBad)

/-- COMMAND (R187). -/
def execCommand (chars : List LinkChar) (s : State) : Outcome State Fault Refusal :=
  whenMessage s .sign 0x14 chars State.takeCommand

/-- REQUEST (R191). -/
def execRequest (chars : List LinkChar) (s : State) : Outcome State Fault Refusal :=
  whenMessage s .service 0x31 chars State.takeRequest

/-! ## Maintenance jobs (R193 to R195) -/

/-- The job in the slot, when it is the given command and not yet carried out. -/
def State.jobTaken (p : JobCommand → Bool) (s : State) : Option Job :=
  match s.maint.slot with
  | some j => if s.inService && j.stage == .taken && p j.command then some j else none
  | none => none

/-- A command's answer where the slot holds such a job. -/
def withJob (s : State) (j : Option Job) (effect : Job → State → State) : Outcome State Fault Refusal :=
  .next (match j with
    | some j => effect j s
    | none => s)

def JobCommand.isRead : JobCommand → Bool
  | .read _ => true
  | _ => false

/-- READ (R193). -/
def execRead (s : State) : Outcome State Fault Refusal := withJob s (s.jobTaken JobCommand.isRead) State.readOn

/-- CLEAR_ALERTS (R194, R197). -/
def execClearAlerts (s : State) : Outcome State Fault Refusal :=
  withJob s (s.jobTaken (· == .clearAlerts)) (fun j s => s.clearLatches.answerJob j .taken)

/-- CLEAR_COUNTERS (R194). -/
def execClearCounters (s : State) : Outcome State Fault Refusal :=
  withJob s (s.jobTaken (· == .clearCounters)) (fun j s => s.clearAllCounters.answerJob j .taken)

/-- SERVICE_RESTART (R7). -/
def execServiceRestart (s : State) : Outcome State Fault Refusal :=
  withJob s (s.jobTaken (· == .serviceRestart)) State.beginRestart

/-- The job in the slot, when it waits for a cell. -/
def State.jobPaused (s : State) : Option Job :=
  match s.maint.slot with
  | some j =>
    if s.inService then match j.stage with
      | .reading _ | .answering _ => some j
      | .taken | .restarting | .remote _ _ => none
    else none
  | none => none

/-- A paused job is taken up again. -/
def State.resumeJob (j : Job) (s : State) : State :=
  match j.stage with
  | .answering r => s.answerJob j r
  | _ => s.readOn j

/-- REPLY_PART_RESUME (R193, R194). -/
def execReplyPartResume (s : State) : Outcome State Fault Refusal := withJob s s.jobPaused State.resumeJob

/-- REMOTE_REQUEST_PLACED (R191). -/
def execRemoteRequestPlaced (s : State) : Outcome State Fault Refusal := whenever s s.inService State.retryRemote

/-- REMOTE_WAIT_EXPIRY (R195). -/
def execRemoteWaitExpiry (s : State) : Outcome State Fault Refusal :=
  .next (match s.maint.wait with
    | some w => if s.inService && w.timer.expired then s.waitExpires w else s
    | none => s)

end Sys2Proof.Machine
end

