-- ==== Sys2Proof/Machine/ExecLine.lean ====
section
/-! DEFINITION. The meanings of the line ports', Fold Controller's, Carriage Unit's, Holdback Unit's and Peer Table's
rows. -/

namespace Sys2Proof.Machine

open Host

/-- RX_FRAME_COMPLETE (R19 to R24, R43, R54). -/
def execRxFrameComplete (p : Port) (header : List RxSymbol) (payload crc : List Byte) (s : State) :
    Outcome State Fault Refusal :=
  whenBrought s (s.received p (frameSymbols header payload crc)) (fun e => match e with
    | .frame f corrected payload crc => some (State.completeFrame p f corrected payload crc)
    | .discarded _ | .spanWord _ _ _ | .spanInvalid _ | .codeError => none)

/-- RX_FRAME_DISCARDED (R19 to R22). -/
def execRxFrameDiscarded (p : Port) (before : List RxSymbol) (cause : RxSymbol) (s : State) : Outcome State Fault Refusal :=
  whenBrought s (s.received p (before ++ [cause])) (fun e => match e with
    | .discarded cause => some (State.discard p cause)
    | .frame _ _ _ _ | .spanWord _ _ _ | .spanInvalid _ | .codeError => none)

/-- SPAN_WORD_RECEIVED (R19, R25, R38 to R40). -/
def execSpanWordReceived (p : Port) (content : List RxSymbol) (check : Byte) (s : State) : Outcome State Fault Refusal :=
  whenBrought s (s.received p (spanSymbols content check)) (fun e => match e with
    | .spanWord sender st fault => some (State.spanValid p sender st fault)
    | .frame _ _ _ _ | .discarded _ | .spanInvalid _ | .codeError => none)

/-- SPAN_WORD_INVALID (R19, R22, R25, R45). -/
def execSpanWordInvalid (p : Port) (symbols : List RxSymbol) (s : State) : Outcome State Fault Refusal :=
  whenBrought s (s.received p symbols) (fun e => match e with
    | .spanInvalid codeError => some (State.spanInvalid p codeError)
    | .frame _ _ _ _ | .discarded _ | .spanWord _ _ _ | .codeError => none)

/-- LINE_CODE_ERROR, received in HUNTING (R19). -/
def execLineCodeError (p : Port) (s : State) : Outcome State Fault Refusal :=
  whenBrought s (s.received p [none]) (fun e => match e with
    | .codeError => some (fun s => (s.portCount p .lineCodeErrors).scoreChange p .worse)
    | .frame _ _ _ _ | .discarded _ | .spanWord _ _ _ | .spanInvalid _ => none)

/-- SIGNAL_LOSS (R26): the symbols that came before the fall, then the fall. -/
def execSignalLoss (p : Port) (header body : List RxSymbol) (s : State) : Outcome State Fault Refusal :=
  whenever s (Pins.signal p s.pins) (fun s =>
    let s := (s.receiveAll ((header ++ body).map (fun x => (p, x)))).modPins (Pins.setSignal p false)
    if s.awake then s.signalLost p else s)

/-- SIGNAL_RISE (R26). -/
def execSignalRise (p : Port) (s : State) : Outcome State Fault Refusal :=
  whenever s (!Pins.signal p s.pins) (fun s => (s.modPins (Pins.setSignal p true)).setRx p .hunting)

/-- SPAN_WORD_SENT (R27). -/
def execSpanWordSent (p : Port) (s : State) : Outcome State Fault Refusal := whenever s s.awake (State.spanSent p)

/-- FRAME_SENT (R28, R68). -/
def execFrameSent (p : Port) (s : State) : Outcome State Fault Refusal := whenever s s.awake (State.frameSent p)

/-- ARBITER_CHOICE (R50, R65 to R67, R70). -/
def execArbiterChoice (d : Dir) (s : State) : Outcome State Fault Refusal :=
  whenever s (s.awake && (s.port (Dir.side d)).mayChoose) (State.arbitrate d)

/-- LOSS_TIMER_EXPIRY (R41). -/
def execLossTimerExpiry (p : Port) (s : State) : Outcome State Fault Refusal :=
  whenever s (s.awake && (s.port p).loss.expired) (State.lossExpires p)

/-- HOLD_OFF_EXPIRY (R42). -/
def execHoldOffExpiry (p : Port) (s : State) : Outcome State Fault Refusal :=
  whenever s (s.awake && (s.port p).link == .settling && (s.port p).holdOff.expired) (State.holdOffExpires p)

/-- RECOVERY_TIMER_EXPIRY (R45). -/
def execRecoveryTimerExpiry (p : Port) (s : State) : Outcome State Fault Refusal :=
  whenever s (s.awake && (s.port p).link == .isolated && (s.port p).recovery.expired) (State.recoveryExpires p)

/-- FOLDED_LINE_TIME_END (R50). -/
def execFoldedLineTimeEnd (p : Port) (s : State) : Outcome State Fault Refusal :=
  whenever s s.awake (State.modPort p (fun r => { r with lineWait := none }))

/-- RETURN_DEADLINE_EXPIRY (R72). -/
def execReturnDeadlineExpiry (kind : ReturnKind) (seq : Word) (tag : Byte) (s : State) : Outcome State Fault Refusal :=
  .next (match s.awaiting kind seq tag with
    | some e => if s.awake && e.deadline.expired then s.returnLost e else s
    | none => s)

/-- STARVATION_TIMER_EXPIRY (R87). -/
def execStarvationTimerExpiry (s : State) : Outcome State Fault Refusal :=
  whenever s (s.inService && s.holdback.starvation.expired) State.starves

/-- HOLDBACK_REPEAT_EXPIRY (R87). -/
def execHoldbackRepeatExpiry (s : State) : Outcome State Fault Refusal :=
  whenever s (s.inService && s.holdback.repeating.expired) State.holdbackRepeats

/-- HOLDBACK_ENTRY_EXPIRY (R89). -/
def execHoldbackEntryExpiry (originator : Addr) (s : State) : Outcome State Fault Refusal :=
  whenever s (s.awake && s.holdback.entries.any (fun e => e.originator == originator && e.expiry.expired))
    (State.holdbackLapses originator)

/-- HOLDBACK_PERIOD_EXPIRY (R90). -/
def execHoldbackPeriodExpiry (s : State) : Outcome State Fault Refusal :=
  whenever s (s.inService && s.holdback.period.expired) State.holdbackPeriodEnds

/-- PRESENCE_TIMER_EXPIRY (R94, R98). -/
def execPresenceTimerExpiry (s : State) : Outcome State Fault Refusal :=
  whenever s (s.awake && s.start != .transparent && s.peers.timer.expired) State.presenceExpiry

end Sys2Proof.Machine
end

