-- ==== Sys2Proof/Machine/ExecPhone.lean ====
section
/-! DEFINITION. The meanings of the phone highway's, the roadside lines' and the switchboard's rows. -/

namespace Sys2Proof.Machine

open Host

/-- HIGHWAY_MARKED_FRAME (R104). -/
def execHighwayMarkedFrame (frames : Nat) (channels : List HwChannel) (s : State) : Outcome State Fault Refusal :=
  whenever s s.hearsHighway (State.markedFrame frames channels)

/-- HIGHWAY_LOSS_TIMER_EXPIRY (R104, R105, R139). A timer kept from an earlier role expires at role NONE too (DESIGN CHOICE,
log 60). -/
def execHighwayLossTimerExpiry (s : State) : Outcome State Fault Refusal :=
  whenever s (s.inService && s.phone.loss.expired) State.highwayLost

/-- HOOK_CHECK_PASSED (R108). -/
def execHookCheckPassed (i : Fin 4) (s : State) : Outcome State Fault Refusal :=
  whenever s (s.phoneAs .roadside && (s.line i).state == .hookCheck && decide (Config.hookCheck ≤ (s.line i).offRun))
    (State.hookPassed i)

/-- HANG_UP (R114). -/
def execHangUp (i : Fin 4) (s : State) : Outcome State Fault Refusal :=
  whenever s (s.phoneAs .roadside && (s.line i).state.hangsUp && decide (Config.hangUp ≤ (s.line i).onRun))
    (State.hungUp i)

/-- LINE_ANSWER (R116): an off-hook run of 5 or more, reached while ringing or kept from before it (DESIGN CHOICE, log 46). -/
def execLineAnswer (i : Fin 4) (s : State) : Outcome State Fault Refusal :=
  whenever s (s.phoneAs .roadside && (s.line i).state == .ringing && decide (Config.ringAnswer ≤ (s.line i).offRun))
    (State.lineAnswers i)

/-- SETUP_RETRY_EXPIRY (R109). -/
def execSetupRetryExpiry (i : Fin 4) (s : State) : Outcome State Fault Refusal :=
  whenever s (s.phoneAs .roadside && (s.line i).state == .requesting && (s.line i).retry.expired) (State.retrySetup i)

/-- LINE_SUPERVISION_EXPIRY (R112). -/
def execLineSupervisionExpiry (i : Fin 4) (s : State) : Outcome State Fault Refusal :=
  whenever s (s.phoneAs .roadside && (s.line i).state.supervised && (s.line i).supervision.expired) (State.lineLapses i)

/-- LINE_CLEARING_EXPIRY (R115). -/
def execLineClearingExpiry (i : Fin 4) (s : State) : Outcome State Fault Refusal :=
  whenever s (s.phoneAs .roadside && (s.line i).state == .clearing && (s.line i).clearing.expired)
    (State.lineClearingRepeats i)

/-- LINE_RING_TIMEOUT (R116). -/
def execLineRingTimeout (i : Fin 4) (s : State) : Outcome State Fault Refusal :=
  whenever s (s.phoneAs .roadside && (s.line i).state == .ringing && (s.line i).ring.expired) (State.ringEnds i)

/-- OPEN (R132). -/
def execConsoleOpen (c : Fin 16) (s : State) : Outcome State Fault Refusal :=
  whenever s (s.consoleReady c .openChannel) (fun s => (s.consoleDone c).consoleOpens c)

/-- CLOSE (R132). -/
def execConsoleClose (c : Fin 16) (s : State) : Outcome State Fault Refusal :=
  whenever s (s.consoleReady c .closeChannel) (fun s => (s.consoleDone c).consoleCloses c)

/-- ANSWER (R133). -/
def execConsoleAnswer (c : Fin 16) (s : State) : Outcome State Fault Refusal :=
  whenever s (s.consoleReady c .answer) (fun s => (s.consoleDone c).consoleAnswers c)

/-- RELEASE (R133). -/
def execConsoleRelease (c : Fin 16) (s : State) : Outcome State Fault Refusal :=
  whenever s (s.consoleReady c .release) (fun s => (s.consoleDone c).consoleReleases c)

/-- CALLBACK (R135). -/
def execConsoleCallback (c : Fin 16) (s : State) : Outcome State Fault Refusal :=
  whenever s (s.consoleReady c .callback) (fun s => (s.consoleDone c).consoleCallsBack c (s.channel c).takenArg)

/-- OFFER_REFRESH_EXPIRY (R137). -/
def execOfferRefreshExpiry (c : Fin 16) (s : State) : Outcome State Fault Refusal :=
  whenever s (s.phoneAs .switchboard && (s.channel c).state == .offered && (s.channel c).refresh.expired)
    (State.offerRefresh c)

/-- WAITING_REFRESH_EXPIRY (R137). -/
def execWaitingRefreshExpiry (station : Addr) (line : Fin 4) (s : State) : Outcome State Fault Refusal :=
  whenever s (s.phoneAs .switchboard &&
      s.switchboard.waiting.any (fun w => w.party == { station := station, line := line } && w.refresh.expired))
    (State.waitingRefresh { station := station, line := line })

/-- CHANNEL_SUPERVISION_EXPIRY (R137). -/
def execChannelSupervisionExpiry (c : Fin 16) (s : State) : Outcome State Fault Refusal :=
  whenever s (s.phoneAs .switchboard && ((s.channel c).state == .talking || (s.channel c).state == .callingBack) &&
      (s.channel c).supervision.expired)
    (State.channelLapses c)

/-- CALLBACK_RING_EXPIRY (R135). -/
def execCallbackRingExpiry (c : Fin 16) (s : State) : Outcome State Fault Refusal :=
  whenever s (s.phoneAs .switchboard && (s.channel c).state == .callingBack && (s.channel c).ring.expired)
    (State.callbackRings c)

/-- CHANNEL_CLEARING_EXPIRY (R133). -/
def execChannelClearingExpiry (c : Fin 16) (s : State) : Outcome State Fault Refusal :=
  whenever s (s.phoneAs .switchboard && (s.channel c).state == .clearing && (s.channel c).clearing.expired)
    (State.channelClearingRepeats c)

end Sys2Proof.Machine
end

