-- ==== Sys2Proof/Machine/ExecService.lean ====
section
/-! DEFINITION. The meanings of the Toll Journal's, the Weather Unit's and the Sign Unit's own rows. -/

namespace Sys2Proof.Machine

open Host

/-- SEND_PASS (R146). -/
def execSendPass (s : State) : Outcome State Fault Refusal := .next s.sendPass

/-- BACKOFF_TIMER_EXPIRY (R149). -/
def execBackoffTimerExpiry (seq : Word) (s : State) : Outcome State Fault Refusal :=
  whenever s (s.inService && s.journal.entries.any (fun e => e.seq == seq && e.backoff.expired)) (State.backoffExpiry seq)

/-- PARK_TIMER_EXPIRY (R147). -/
def execParkTimerExpiry (s : State) : Outcome State Fault Refusal :=
  whenever s (s.inService && s.journal.park.expired) State.parkExpiry

/-- REPORT_TIMER_EXPIRY (R172, R83; log 17). -/
def execReportTimerExpiry (s : State) : Outcome State Fault Refusal :=
  whenever s (s.sampling && s.weather.report.expired)
    (fun s => (s.modWeather (fun w => { w with report := w.report.take })).makeReport)

/-- SHOW_RETRY_EXPIRY (R186). -/
def execShowRetryExpiry (i : Fin 4) (s : State) : Outcome State Fault Refusal :=
  whenever s (s.inService && s.hasSign i && (s.sign i).handover == .awaiting && (s.sign i).retry.expired)
    (State.showRetry i)

/-- Whether the lifetime of a sign's CENTRE entry has expired. -/
def SignRec.centreDue (r : SignRec) : Bool :=
  match r.centre with
  | some c => c.lifetime.expired
  | none => false

/-- Whether the duration of a sign's TEST entry has expired. -/
def SignRec.testDue (r : SignRec) : Bool :=
  match r.test with
  | some t => t.duration.expired
  | none => false

/-- CENTRE_LIFETIME_EXPIRY (R182). -/
def execCentreLifetimeExpiry (i : Fin 4) (s : State) : Outcome State Fault Refusal :=
  whenever s (s.inService && s.hasSign i && (s.sign i).centreDue)
    (State.changeEntries i (fun r => { r with centre := none }))

/-- TEST_DURATION_EXPIRY (R182). -/
def execTestDurationExpiry (i : Fin 4) (s : State) : Outcome State Fault Refusal :=
  whenever s (s.inService && s.hasSign i && (s.sign i).testDue)
    (State.changeEntries i (fun r => { r with test := none }))

/-- INCIDENT_TIMER_EXPIRY (R180). -/
def execIncidentTimerExpiry (s : State) : Outcome State Fault Refusal :=
  whenever s (s.inService && s.image.roles.sign == .signs && s.signs.incidentTimer.expired) State.incidentExpiry

/-- HELD_COMMAND_RETRY (R187). -/
def execHeldCommandRetry (s : State) : Outcome State Fault Refusal :=
  whenever s (s.inService && s.image.roles.sign == .centre) State.retryCommand

end Sys2Proof.Machine
end

