-- ==== Sys2Proof/Machine/Dispatch.lean ====
section
/-! DEFINITION. One arm per command, each a direct call of its meaning. -/

namespace Sys2Proof.Machine

def exec (i : Instr) (s : State) : Host.Outcome State Fault Refusal :=
  match i with
  | .fullReset => Sys2Proof.Machine.execFullReset s
  | .resetRelease => Sys2Proof.Machine.execResetRelease s
  | .readAttemptDone answers => Sys2Proof.Machine.execReadAttemptDone answers s
  | .readRetryPauseEnd => Sys2Proof.Machine.execReadRetryPauseEnd s
  | .linePulse input => Sys2Proof.Machine.execLinePulse input s
  | .ackSample low => Sys2Proof.Machine.execAckSample low s
  | .sampleWork => Sys2Proof.Machine.execSampleWork s
  | .staleLimitReached q => Sys2Proof.Machine.execStaleLimitReached q s
  | .levelRise c => Sys2Proof.Machine.execLevelRise c s
  | .levelFall c => Sys2Proof.Machine.execLevelFall c s
  | .staleClear c => Sys2Proof.Machine.execStaleClear c s
  | .linkMessageMalformed l chars => Sys2Proof.Machine.execLinkMessageMalformed l chars s
  | .linkGapTimeout l => Sys2Proof.Machine.execLinkGapTimeout l s
  | .linkMessageUnknown l chars => Sys2Proof.Machine.execLinkMessageUnknown l chars s
  | .linkOverrun l chars => Sys2Proof.Machine.execLinkOverrun l chars s
  | .linkReadyInHigh l high => Sys2Proof.Machine.execLinkReadyInHigh l high s
  | .linkMessageSent l => Sys2Proof.Machine.execLinkMessageSent l s
  | .record chars => Sys2Proof.Machine.execRecord chars s
  | .sample chars => Sys2Proof.Machine.execSample chars s
  | .shown chars => Sys2Proof.Machine.execShown chars s
  | .signFault chars => Sys2Proof.Machine.execSignFault chars s
  | .command chars => Sys2Proof.Machine.execCommand chars s
  | .request chars => Sys2Proof.Machine.execRequest chars s
  | .read => Sys2Proof.Machine.execRead s
  | .clearAlerts => Sys2Proof.Machine.execClearAlerts s
  | .clearCounters => Sys2Proof.Machine.execClearCounters s
  | .serviceRestart => Sys2Proof.Machine.execServiceRestart s
  | .replyPartResume => Sys2Proof.Machine.execReplyPartResume s
  | .remoteRequestPlaced => Sys2Proof.Machine.execRemoteRequestPlaced s
  | .remoteWaitExpiry => Sys2Proof.Machine.execRemoteWaitExpiry s
  | .rxFrameComplete p header payload crc => Sys2Proof.Machine.execRxFrameComplete p header payload crc s
  | .rxFrameDiscarded p before cause => Sys2Proof.Machine.execRxFrameDiscarded p before cause s
  | .spanWordReceived p content check => Sys2Proof.Machine.execSpanWordReceived p content check s
  | .spanWordInvalid p symbols => Sys2Proof.Machine.execSpanWordInvalid p symbols s
  | .lineCodeError p => Sys2Proof.Machine.execLineCodeError p s
  | .signalLoss p header body => Sys2Proof.Machine.execSignalLoss p header body s
  | .signalRise p => Sys2Proof.Machine.execSignalRise p s
  | .spanWordSent p => Sys2Proof.Machine.execSpanWordSent p s
  | .frameSent p => Sys2Proof.Machine.execFrameSent p s
  | .arbiterChoice d => Sys2Proof.Machine.execArbiterChoice d s
  | .sendPass => Sys2Proof.Machine.execSendPass s
  | .lossTimerExpiry p => Sys2Proof.Machine.execLossTimerExpiry p s
  | .holdOffExpiry p => Sys2Proof.Machine.execHoldOffExpiry p s
  | .recoveryTimerExpiry p => Sys2Proof.Machine.execRecoveryTimerExpiry p s
  | .foldedLineTimeEnd p => Sys2Proof.Machine.execFoldedLineTimeEnd p s
  | .returnDeadlineExpiry kind seq tag => Sys2Proof.Machine.execReturnDeadlineExpiry kind seq tag s
  | .starvationTimerExpiry => Sys2Proof.Machine.execStarvationTimerExpiry s
  | .holdbackRepeatExpiry => Sys2Proof.Machine.execHoldbackRepeatExpiry s
  | .holdbackEntryExpiry originator => Sys2Proof.Machine.execHoldbackEntryExpiry originator s
  | .holdbackPeriodExpiry => Sys2Proof.Machine.execHoldbackPeriodExpiry s
  | .presenceTimerExpiry => Sys2Proof.Machine.execPresenceTimerExpiry s
  | .highwayMarkedFrame frames channels => Sys2Proof.Machine.execHighwayMarkedFrame frames channels s
  | .highwayLossTimerExpiry => Sys2Proof.Machine.execHighwayLossTimerExpiry s
  | .hookCheckPassed line => Sys2Proof.Machine.execHookCheckPassed line s
  | .hangUp line => Sys2Proof.Machine.execHangUp line s
  | .lineAnswer line => Sys2Proof.Machine.execLineAnswer line s
  | .setupRetryExpiry line => Sys2Proof.Machine.execSetupRetryExpiry line s
  | .lineSupervisionExpiry line => Sys2Proof.Machine.execLineSupervisionExpiry line s
  | .lineClearingExpiry line => Sys2Proof.Machine.execLineClearingExpiry line s
  | .lineRingTimeout line => Sys2Proof.Machine.execLineRingTimeout line s
  | .consoleOpen ch => Sys2Proof.Machine.execConsoleOpen ch s
  | .consoleClose ch => Sys2Proof.Machine.execConsoleClose ch s
  | .consoleAnswer ch => Sys2Proof.Machine.execConsoleAnswer ch s
  | .consoleRelease ch => Sys2Proof.Machine.execConsoleRelease ch s
  | .consoleCallback ch => Sys2Proof.Machine.execConsoleCallback ch s
  | .offerRefreshExpiry ch => Sys2Proof.Machine.execOfferRefreshExpiry ch s
  | .waitingRefreshExpiry station line => Sys2Proof.Machine.execWaitingRefreshExpiry station line s
  | .channelSupervisionExpiry ch => Sys2Proof.Machine.execChannelSupervisionExpiry ch s
  | .callbackRingExpiry ch => Sys2Proof.Machine.execCallbackRingExpiry ch s
  | .channelClearingExpiry ch => Sys2Proof.Machine.execChannelClearingExpiry ch s
  | .backoffTimerExpiry seq => Sys2Proof.Machine.execBackoffTimerExpiry seq s
  | .parkTimerExpiry => Sys2Proof.Machine.execParkTimerExpiry s
  | .reportTimerExpiry => Sys2Proof.Machine.execReportTimerExpiry s
  | .showRetryExpiry sign => Sys2Proof.Machine.execShowRetryExpiry sign s
  | .centreLifetimeExpiry sign => Sys2Proof.Machine.execCentreLifetimeExpiry sign s
  | .testDurationExpiry sign => Sys2Proof.Machine.execTestDurationExpiry sign s
  | .incidentTimerExpiry => Sys2Proof.Machine.execIncidentTimerExpiry s
  | .heldCommandRetry => Sys2Proof.Machine.execHeldCommandRetry s

end Sys2Proof.Machine
end

