-- ==== Sys2Proof/Safety.lean ====
section
/-! DEFINITION. What counts as a sound part, in the terms the statements use: what a command counts and sends, and the
invariants that the manual states of the whole part. -/

namespace Sys2Proof.Machine

/-! ## What a link hears, what a port receives, and when a pulse falls -/

/-- The characters bring an event, with the last of them and only with it (R13 to R15). -/
def Hears (l : Link) (chars : List LinkChar) (e : LinkEvent) (s : State) : Prop := ∃ t, s.heard l chars = some (e, t)

/-- The state once a message has ended: the link's receiver hunts and its gap timer is stopped. -/
def State.hunting (l : Link) (s : State) : State :=
  s.modLink l (fun r => { r with rx := .hunting, gap := Timer.stopped })

/-- The three pulse sources (R9). -/
inductive PulseSource where
  | line | service | sample
  deriving DecidableEq, Repr

def Image.bit (i : Image) : PulseSource → Nat
  | .line => i.lineBit
  | .service => i.serviceBit
  | .sample => i.sampleBit

/-- Microseconds to the next pulse of a source. -/
def State.until (x : PulseSource) (s : State) : Nat := untilPulse (s.image.bit x) s.timebase.toNat

/-- The next pulse to fall is one of the given source, and no other source's falls with it. -/
abbrev State.PulseNext (x : PulseSource) (s : State) : Prop :=
  ∀ y ∈ [PulseSource.line, .service, .sample], s.image.bit y ≤ 22 ∧ (y ≠ x → s.until x < s.until y)

/-- The row of a source's pulse; `low` is the level of ACK_N that a service pulse samples. -/
def PulseSource.row (low : Bool) : PulseSource → Instr
  | .line => .linePulse {}
  | .service => .ackSample low
  | .sample => .sampleWork

/-- Of the ports nothing has changed but their receive states, and of the counters those of corrected headers alone; the rest of
the state is as it was. -/
abbrev SameButReception (s t : State) : Prop :=
  t = { s with
    west := { s.west with rx := t.west.rx }, east := { s.east with rx := t.east.rx }, counters := t.counters } ∧
  ∀ c, c ≠ .port .west .headerCorrected → c ≠ .port .east .headerCorrected → t.counter c = s.counter c

/-- The rows that a port's reception brings, each with the symbols that it carries (R19, R22 to R25). -/
abbrev Carries (c : Instr) (p : Port) (symbols : List RxSymbol) : Prop :=
  (∃ header payload crc, c = .rxFrameComplete p header payload crc ∧ symbols = frameSymbols header payload crc) ∨
  (∃ before cause, c = .rxFrameDiscarded p before cause ∧ symbols = before ++ [cause]) ∨
  (∃ content check, c = .spanWordReceived p content check ∧ symbols = spanSymbols content check) ∨
  c = .spanWordInvalid p symbols ∨ (c = .lineCodeError p ∧ symbols = [none])

/-! ## Image reads -/

/-- The bus's answers make a read attempt fail (R2). -/
abbrev BusFails (a : BusAnswers) : Prop :=
  a.released = none ∨ a.writeAck = false ∨ a.wordAck = false ∨ a.readAck = false

/-- A raw image that passes (R3). -/
abbrev Passing (raw : List Byte) : Prop :=
  (raw.map BitVec.toNat).sum % 256 = 255 ∧ 1 ≤ (byteAt raw 0).toNat ∧ (byteAt raw 0).toNat ≤ 63

/-- A read attempt with these answers ends the read: it brings 120 bytes, or it is the third that fails (R2). -/
abbrev EndsTheRead (a : BusAnswers) (s : State) : Prop :=
  s.loader.paused = false ∧ ((¬ BusFails a ∧ a.bytes.length = 120) ∨ (BusFails a ∧ 2 ≤ s.loader.fails))

/-! ## What a command counts, places and queues -/

/-- Between `s` and `t` each of the given counters has counted one event, and no other counter has changed. -/
def Counts (cs : List Counter) (s t : State) : Prop :=
  ∀ c, t.counter c = if c ∈ cs then satInc (s.counter c) else s.counter c

/-- The Frame Store would grant a user a cell (R78). -/
def State.grants (u : User) (s : State) : Bool := (s.store.request u).isSome

/-- A frame of a block of this station, as R64 gives it: source this station, fold and hops 0, all marks clear, the payload
CRC computed when the length is above 0. -/
def localFrame (s : State) (kind : Kind) (dest : Addr) (group : Bool) (tag : Byte) (seq : Word) (payload : List Byte) :
    Frame :=
  { kind := kind, source := s.image.address, dest := dest, group := group, fold := 0, hops := 0
    taken := false, refused := false, damaged := false, seq := seq, tag := tag, payload := payload
    crc := if payload = [] then 0 else crc32 payload }

/-- A cell has been granted to a user, and a local frame that holds it has joined the tail of the URGENT queue. -/
def JoinsUrgent (f : Frame) (s t : State) : Prop :=
  ∃ n st, s.store.request .urgentOut = some (n, st) ∧ t.store = st ∧
    t.queues = { s.queues with
      localUrgent := s.queues.localUrgent ++ [{ frame := f, cell := n, user := .urgentOut }] }

/-- The same for the CLASS2 queue and its user. -/
def JoinsClass2 (f : Frame) (s t : State) : Prop :=
  ∃ n st, s.store.request .ordinaryOut = some (n, st) ∧ t.store = st ∧
    t.queues = { s.queues with
      localClass2 := s.queues.localClass2 ++ [{ frame := f, cell := n, user := .ordinaryOut }] }

/-- The cells that the store grants to URGENT_OUT for `n` frames one after another, and the store then; once it has refused
one, it refuses the rest (R78). -/
def Store.cellsFor : Nat → Store → List Nat × Store
  | 0, st => ([], st)
  | n + 1, st =>
    match st.request .urgentOut with
    | some (cell, st) => (cell :: (Store.cellsFor n st).1, (Store.cellsFor n st).2)
    | none => ([], st)

/-- The given URGENT frames have been sent in order: each for which a cell is granted has joined the local URGENT queue, and
each of the others is counted as not sent and reported as a cell shortage (R64, R81). Besides these, each of `cs` has counted
one event, each of `reports` has been reported, and no other counter or alert has changed. -/
def UrgentSent (frames : List Frame) (cs : List StationCounter) (reports : List Alert) (s t : State) : Prop :=
  let cells := (s.store.cellsFor frames.length).1
  let missing := frames.length - cells.length
  t.store = (s.store.cellsFor frames.length).2 ∧
  t.queues = { s.queues with
    localUrgent := s.queues.localUrgent ++
      (frames.zip cells).map (fun e => { frame := e.1, cell := e.2, user := .urgentOut }) } ∧
  (∀ c, t.counter c = Nat.repeat satInc
    (if c ∈ [.refusals .urgentOut, .station .urgentNotSent, .occurrence .cellShortage] then missing
     else if c ∈ cs.map Counter.station ++ reports.map Counter.occurrence then 1 else 0) (s.counter c)) ∧
  ∀ a, if a ∈ reports ∨ (a = .cellShortage ∧ missing ≠ 0) then (t.alert a).latched = true else t.alert a = s.alert a

/-- A CALL message (R118, R138): the station it goes to, the line it is about, the message and its argument. -/
structure Call where
  dest : Addr
  line : Fin 4
  message : CallMessage
  arg : Nat := 0

/-- The CALL frames of the given messages: dest, the line as tag, the message and its argument, and the CALL sequence numbers
that follow. -/
def callFrames (s : State) (l : List Call) : List Frame :=
  l.zipIdx.map (fun e =>
    localFrame s .call e.1.dest false (BitVec.ofNat 8 e.1.line.val) (s.seqs.call + BitVec.ofNat 16 e.2)
      [BitVec.ofNat 8 e.1.message.code, BitVec.ofNat 8 e.1.arg])

/-- The given CALL messages have been sent; a frame that finds no cell takes no number (R74, R118, R138). -/
def CallsSent (l : List Call) (cs : List StationCounter) (reports : List Alert) (s t : State) : Prop :=
  UrgentSent (callFrames s l) cs reports s t ∧
  t.seqs = { s.seqs with call := s.seqs.call + BitVec.ofNat 16 (s.store.cellsFor l.length).1.length }

/-- Promotion for a channel that becomes FREE (R129): with no call waiting it stays FREE, and otherwise it is OFFERED the head
entry, which is sent ACCEPT. The channel then, the list, the messages sent and what is counted. -/
def Channel.freed (c : Fin 16) (r : Channel) : List Waiting → Channel × List Waiting × List Call × List StationCounter
  | [] => ({ r with state := .free }, [], [], [])
  | w :: rest =>
    ({ r with state := .offered, party := some w.party, arrival := some w.arrival, refresh := Timer.armRepeating 32 }, rest,
      [{ dest := w.party.station, line := w.party.line, message := .accept, arg := c.val }], [.callsOffered])

/-- Nothing but one channel, the waiting list, the CALL messages sent and what is counted has changed; a channel that begins
or ends talking to a party has its slot emptied (R123, R127). -/
def ChannelTakes (c : Fin 16) (r : Channel) (list : List Waiting) (sent : List Call) (cs : List StationCounter)
    (s t : State) : Prop :=
  t.channel c = r ∧ (∀ d, d ≠ c → t.channel d = s.channel d) ∧ t.switchboard.waiting = list ∧
  (∀ p, t.voice p =
    if p = .channel c ∧ (s.channel c).talksTo ≠ r.talksTo then { s.voice p with slot := {} } else s.voice p) ∧
  CallsSent sent cs [] s t ∧
  t = { s with
    switchboard := { s.switchboard with
      channels := t.switchboard.channels, waiting := t.switchboard.waiting, arrival := t.switchboard.arrival }
    phone := { s.phone with voice := t.phone.voice }, queues := t.queues, store := t.store, seqs := t.seqs
    counters := t.counters, alerts := t.alerts }

/-- One message has joined the tail of a link's output queue, and an active link whose ready input is high is sending; no
other link has changed (R16). -/
def Queued (l : Link) (m : Message) (s t : State) : Prop :=
  t.links = s.links.set l { s.link l with
    queue := (s.link l).queue ++ [m]
    sending := (s.link l).sending || (s.linkActive l && s.pins.ready.get l) }

/-- An ANSWER has been made in a cell of ORDINARY_OUT and has joined the SERVICE link's output queue (R191). -/
def AnswerQueued (station : Addr) (tag : Byte) (r : Result) (s t : State) : Prop :=
  ∃ n st, s.store.request .ordinaryOut = some (n, st) ∧ t.store = st ∧
    Queued .service { kind := 0x33, body := [station.setWidth 8, tag, BitVec.ofNat 8 r.code], holder := .cell .ordinaryOut n }
      s t

/-- A sign whose entries have changed to those of `r` has its selection worked out again: an IDLE sign is sent a SHOW of a
changed selection, and any other will be, when its outstanding one ends (R183, R184). -/
def Reselects (i : Fin 4) (r : SignRec) (s t : State) : Prop :=
  let sel := r.select s.image s.signs.conditions
  let n := nextShow r.showCounter
  let body := ({ r with selection := sel } : SignRec).showBody i n
  (sel = r.selection → t.sign i = r ∧ t.links = s.links ∧ t.counters = s.counters) ∧
  (sel ≠ r.selection → r.handover = .idle →
    t.sign i = { r with
      selection := sel, showCounter := n, handover := .sending
      outstanding := some { number := n, selection := sel, body := body } } ∧
    Queued .sign { kind := 0x11, body := body, holder := .sign i } s t ∧ Counts [.station .showsSent] s t) ∧
  (sel ≠ r.selection → r.handover ≠ .idle →
    t.sign i = { r with selection := sel, pendingFlag := true } ∧ t.links = s.links ∧
    Counts (if r.pendingFlag then [.station .selectionsSuperseded] else []) s t)

/-- A change of a peer's state has been notified to the Phone Unit (R95, R109): at a ROADSIDE station each line that asks for
an operator takes the tone of the home that is present now, and each tone that goes from CALLING to UNAVAILABLE is
reported. -/
def PhoneTold (s t : State) : Prop :=
  let tone (l : Line) : Tone :=
    if l.reestablishing = false ∧ t.phoneHome ≠ 0 ∧ t.peerPresent t.phoneHome = true then .calling else .unavailable
  let asks (l : Line) : Bool := s.image.roles.phone == .roadside && l.state == .requesting
  let fails (l : Line) : Bool := asks l && l.tone == .calling && tone l == .unavailable
  let failing := allFour.countP (fun i => fails (s.line i))
  (∀ i, t.line i = if asks (s.line i) then { s.line i with tone := tone (s.line i) } else s.line i) ∧
  t.phone = { s.phone with lines := t.phone.lines } ∧
  ((t.alert .switchboardUnreachable).latched = true ↔ (s.alert .switchboardUnreachable).latched = true ∨ failing ≠ 0) ∧
  (∀ a, a ≠ .switchboardUnreachable → t.alert a = s.alert a) ∧
  t.counter (.occurrence .switchboardUnreachable) =
    Nat.repeat satInc failing (s.counter (.occurrence .switchboardUnreachable))

/-- What a change of the off-hook count makes of the incident state (R119, R180): at a station with signs, a count that rises
from 0 takes QUIET to RISING, unless INCIDENT entries are disabled (the model's choice, log 62), and FALLING to ACTIVE; one
that falls to 0 takes RISING to QUIET and ACTIVE to FALLING. Nothing else of the signs changes, and nothing at all otherwise. -/
def IncidentFollows (s t : State) : Prop :=
  t.signs =
    if s.image.roles.sign = .signs ∧ s.offHookCount = 0 ∧ t.offHookCount ≠ 0 then
      match s.signs.incident with
      | .quiet =>
        if s.image.incidentDelay = 0 ∨ s.image.incidentPattern = 0 then s.signs
        else { s.signs with incident := .rising, incidentTimer := Timer.arm s.image.incidentDelay }
      | .falling => { s.signs with incident := .active, incidentTimer := Timer.stopped }
      | .rising | .active => s.signs
    else if s.image.roles.sign = .signs ∧ s.offHookCount ≠ 0 ∧ t.offHookCount = 0 then
      match s.signs.incident with
      | .rising => { s.signs with incident := .quiet, incidentTimer := Timer.stopped }
      | .active => { s.signs with incident := .falling, incidentTimer := Timer.arm s.image.clearDelay }
      | .quiet | .falling => s.signs
    else s.signs

/-- A change about a peer has been notified to the Sign Unit (R95, R97, R179): at a station with signs, for a peer of its
zone, the zone levels and the CONDITIONS entry are those of the peers as they are now; where that entry has changed, each sign
has its selection worked out again (R183). -/
def SignsTold (a : Addr) (s t : State) : Prop :=
  if s.image.roles.sign = .signs ∧ a ∈ s.image.zoneStations then
    t.signs.zone = ⟨t.zoneLevel .ice, t.zoneLevel .wind, t.zoneLevel .fog⟩ ∧
    t.signs.conditions = conditionsEntry s.image t.signs.zone ∧
    t.signs = { s.signs with zone := t.signs.zone, conditions := t.signs.conditions, records := t.signs.records } ∧
    (t.signs.conditions = s.signs.conditions → t.signs.records = s.signs.records ∧ t.links = s.links) ∧
    (t.signs.conditions ≠ s.signs.conditions → ∀ i : Fin 4,
      (t.sign i).centre = (s.sign i).centre ∧ (t.sign i).incident = (s.sign i).incident ∧
      (t.sign i).test = (s.sign i).test ∧
      (t.sign i).selection =
        if i.val < s.image.roles.signCount then (s.sign i).select s.image t.signs.conditions else (s.sign i).selection)
  else t.signs = s.signs ∧ t.links = s.links

/-- The source of a frame, another station, has been seen (R93): its entry is PRESENT with age 0, and a frame at fold count 1
has set its last hops. Where it was not PRESENT before, the change is notified at once (R95), but in RE_READING, to the lines
that ask for an operator (R109), to the Toll Journal's parked entries (R151) and to the zone levels (R179). Each of `heard`
has counted one event besides. -/
def SourceSeen (f : Frame) (heard : List Counter) (s t : State) : Prop :=
  let known : Prop := s.start = .reReading ∨ (s.peer f.source).state = .present
  let home : Prop :=
    s.image.roles.toll ≠ .none ∧ (f.source = s.image.tollPrimary ∨ f.source = s.image.tollAlternate)
  let parked (e : JournalEntry) : Bool := e.state == .parked || (e.state == .inFlight && e.parkTurn)
  t.peer f.source = { s.peer f.source with
    state := .present, age := 0
    lastHops := if f.fold = 1 then some (min (f.hops + 1) 255) else (s.peer f.source).lastHops } ∧
  (∀ a, a ≠ f.source → t.peer a = s.peer a) ∧ t.peers = { s.peers with entries := t.peers.entries } ∧
  (known →
    Counts heard s t ∧ t.alerts = s.alerts ∧ t.phone = s.phone ∧ t.signs = s.signs ∧ t.links = s.links ∧
      t.journal = s.journal) ∧
  (¬ known →
    PhoneTold s t ∧ SignsTold f.source s t ∧ (¬ home → t.journal = s.journal) ∧
    (home → t.journal = { s.journal with
      due := none
      entries := s.journal.entries.map (fun e =>
        if e.state = .parked then { e with state := .waiting, attempts := 0, backoff := Timer.stopped }
        else if e.state = .inFlight ∧ e.parkTurn = true then { e with parkTurn := false, attempts := 1 }
        else e) }) ∧
    ∀ c, c ∉ [Counter.station .showsSent, .station .selectionsSuperseded, .occurrence .switchboardUnreachable] →
      t.counter c =
        if c ∈ heard ∨ (c = .station .parkReleases ∧ home ∧ ∃ e ∈ s.journal.entries, parked e = true) then
          satInc (s.counter c)
        else s.counter c)

/-- The frame that a transmitter is sending. -/
def TxState.held : TxState → List Held
  | .frame h => [h]
  | .idle | .span _ => []

/-- A change of the score by 6 leaves the port's error state ACTIVE (R31, R32). -/
abbrev PortRec.Quiet (img : Image) (r : PortRec) : Prop :=
  r.errorState = .active ∧ r.score + 6 < img.warning ∧ r.score + 6 < img.isolation

/-- No frame is to leave by a side: its transit queues are empty and no frame is on its wire (R30, R47). -/
abbrev State.NothingLeaves (p : Port) (s : State) : Prop :=
  s.queues.transit (Port.departure p) = [] ∧ (s.port p).tx.held = []

/-- A timer after `k` pulses of its source. -/
def Timer.pulses : Nat → Timer → Timer
  | 0, t => t
  | k + 1, t => Timer.pulses k t.tick

/-! ## Kinds of command -/

/-- The commands that can put the start state to RUNNING, TRANSPARENT or HELD, and with it every block to its state at a
start. -/
def Starting (c : Instr) : Prop := c = .fullReset ∨ ∃ r, c = .readAttemptDone r

/-- The three pulses. -/
def Pulsing (c : Instr) : Prop := (∃ input, c = .linePulse input) ∨ (∃ low, c = .ackSample low) ∨ c = .sampleWork

/-- The commands in which a frame can be presented: a frame is received or chosen by an arbiter, or a side may fold (R43,
R47, R48). -/
def Presenting (c : Instr) : Prop :=
  (∃ p x y z, c = .rxFrameComplete p x y z) ∨ (∃ p x y, c = .rxFrameDiscarded p x y) ∨
  (∃ p x y, c = .spanWordReceived p x y) ∨ (∃ p x, c = .spanWordInvalid p x) ∨ (∃ p, c = .lineCodeError p) ∨
  (∃ p x y, c = .signalLoss p x y) ∨
  (∃ p, c = .lossTimerExpiry p) ∨ ∃ d, c = .arbiterChoice d

/-! ## Sound states -/

/-- R78, R79: no user's guarantee is above its maximum, no user holds more than its maximum, and the free cells are never
fewer than the sum of the unused guarantees. -/
abbrev Store.SharesKept (st : Store) : Prop :=
  (∀ u ∈ allUsers, (st.users.get u).guarantee ≤ (st.users.get u).maximum ∧
    (st.users.get u).count ≤ (st.users.get u).maximum) ∧
  (allUsers.map (fun u => (st.users.get u).guarantee - (st.users.get u).count)).sum ≤ st.free.length

/-- Every frame in the queues and on the wire. -/
def State.frames (s : State) : List Held :=
  s.queues.riseUrgent ++ s.queues.riseOrdinary ++ s.queues.fallUrgent ++ s.queues.fallOrdinary ++ s.queues.localUrgent ++
    s.queues.localToll ++ s.queues.localClass2 ++ s.queues.localWeather ++ s.west.tx.held ++ s.east.tx.held

/-- The cell that a message holds for a user. -/
def Message.cellOf (u : User) (m : Message) : List Nat :=
  match m.holder with
  | .cell v n => if u = v then [n] else []
  | .notice | .outcome | .sign _ | .nobody => []

/-- Every message in the four output queues. -/
def State.messages (s : State) : List Message :=
  s.links.toll.queue ++ s.links.sign.queue ++ s.links.weather.queue ++ s.links.service.queue

/-- The cells of a user, wherever they are held: frames (but for local TOLL frames, which are sent out of their journal
entries' cells), journal entries and link messages (R76). -/
def State.cellsOf (u : User) (s : State) : List Nat :=
  ((s.frames.filter (fun h => h.user == u && u != .journal)).map (·.cell)) ++
    (if u = .journal then s.journal.entries.map (·.cell) else []) ++ s.messages.flatMap (Message.cellOf u)

/-- R79: the store's count of each user is the number of cells that the user holds, and the cells held by all users plus
the free cells number 256. R76: no cell is held
twice, or held and free. The last four clauses say which cells the parts of the machine that free them rely on. -/
abbrev State.CellsConserved (s : State) : Prop :=
  (∀ u ∈ allUsers, (s.store.users.get u).count = (s.cellsOf u).length) ∧
  (allUsers.map (fun u => (s.store.users.get u).count)).sum + s.store.free.length = Config.cells ∧
  (s.store.free ++ allUsers.flatMap (fun u => s.cellsOf u)).Nodup ∧
  (s.journal.entries.map (·.seq)).Nodup ∧
  (∀ h ∈ s.queues.localToll, h.user = .journal) ∧
  (∀ h ∈ s.queues.localWeather, h.user = .weatherOut) ∧
  (∀ m ∈ s.links.sign.queue, ∀ u ∈ allUsers, Message.cellOf u m = [])

/-- R69: at most 16 entries, at most 4 of them TOLL, and no key twice. -/
abbrev ReturnsBounded (l : List ReturnEntry) : Prop :=
  l.length ≤ 16 ∧ l.countP (fun e => e.kind == .toll) ≤ 4 ∧ (l.map (fun e => (e.kind, e.seq, e.tag))).Nodup

/-- R88, R90: at most 4 entries, at most one for an originator, and none originated by the station itself. -/
abbrev Holdback.Bounded (own : Addr) (h : Holdback) : Prop :=
  h.entries.length ≤ 4 ∧ (h.entries.map (·.originator)).Nodup ∧ ∀ e ∈ h.entries, e.originator ≠ own

/-- R143, R145, R146: at most 96 entries, no sequence twice, no reader tag twice, at most 4 in flight. -/
abbrev Journal.Bounded (j : Journal) : Prop :=
  j.entries.length ≤ 96 ∧ (j.entries.map (·.seq)).Nodup ∧ (j.entries.map (·.readerTag)).Nodup ∧
    j.entries.countP (fun e => e.state == .inFlight) ≤ 4

/-- R146: every IN_FLIGHT journal entry has exactly one matching return list entry, and every TOLL return list entry has
exactly one matching IN_FLIGHT journal entry. The other clauses are what keeps it so: sequences and keys are held once, and
a park turn that is due names a PARKED entry. -/
abbrev State.AttemptsMatched (s : State) : Prop :=
  (s.journal.entries.map (·.seq)).Nodup ∧ (s.returns.map (fun e => (e.kind, e.seq, e.tag))).Nodup ∧
  (∀ e ∈ s.journal.entries, e.state = .inFlight →
    s.returns.countP (fun r => r.kind == .toll && r.seq == e.seq) = 1) ∧
  (∀ r ∈ s.returns, r.kind = .toll →
    s.journal.entries.countP (fun e => e.seq == r.seq && e.state == .inFlight) = 1) ∧
  (∀ e ∈ s.journal.entries, s.journal.due = some e.seq → e.state = .parked) ∧
  (∀ q, s.journal.due = some q → ∃ e ∈ s.journal.entries, e.seq = q ∧ e.state = .parked)

/-- The party a channel holds. -/
def Channel.held (r : Channel) : List Party :=
  match r.party with
  | some p => if r.state.holds then [p] else []
  | none => []

/-- R128: a party appears at most once across the call table and the waiting list, the list holds at most 32, and no
channel is FREE while the list is not empty. -/
abbrev Switchboard.Sound (b : Switchboard) : Prop :=
  (allSixteen.flatMap (fun c => (Table.get {} c b.channels).held) ++ b.waiting.map (·.party)).Nodup ∧
  b.waiting.length ≤ 32 ∧
  (b.waiting ≠ [] → ∀ c ∈ allSixteen, (Table.get {} c b.channels).state ≠ .free)

/-- R128: the waiting list is in arrival order. Arrival numbers are compared by their distance from `base`, which no call
held or still to come has passed: the calls of the list and of the OFFERED channels have numbers of their own, each taken
before the counter's value. -/
abbrev Switchboard.InOrder (base : Word) (b : Switchboard) : Prop :=
  let age (a : Word) : Nat := (a - base).toNat
  let offered := allSixteen.filterMap (fun c =>
    if (Table.get {} c b.channels).state = .offered then (Table.get {} c b.channels).arrival else none)
  age b.arrival ≤ 32767 ∧ (∀ n ∈ (b.waiting.map (·.arrival) ++ offered).map age, n < age b.arrival) ∧
  (b.waiting.map (·.arrival) ++ offered).Nodup ∧ b.waiting.Pairwise (fun x y => age x.arrival < age y.arrival)

/-- R31, R33, R44: the score is 0 to 255, and the error state is ISOLATED exactly while the link state is. -/
abbrev PortRec.Sound (r : PortRec) : Prop := r.score ≤ 255 ∧ (r.errorState = .isolated ↔ r.link = .isolated)

/-- R19, R20, R21: what has come of an item is less than the whole of it, and a header that has put the receiver in BODY has
passed its field check. -/
def RxState.sound : RxState → Bool
  | .hunting => true
  | .header bytes => decide (bytes.length < 9)
  | .body f n _ bytes => f.source != 0 && decide (f.fold ≤ 2) && decide (n ≤ 232) && decide (bytes.length ≤ bodySymbols n)
  | .span bytes => decide (bytes.length < 3)

/-- R19, R26, R35: both receivers hold an unfinished item or hunt, and one that gets no symbols hunts. -/
abbrev State.ReceiversSound (s : State) : Prop :=
  ∀ p ∈ [Port.west, .east], (s.port p).rx.sound = true ∧ (s.receiving p = false → (s.port p).rx = .hunting)

/-- R30, R46, R47, R49: no frame is on the wire of a folded side, the transit queues of a folded side are empty, and every
frame that the station holds has fold count 0, 1 or 2. -/
abbrev State.FoldsQuiet (s : State) : Prop :=
  (s.east.link ≠ .up → s.queues.riseUrgent = [] ∧ s.queues.riseOrdinary = [] ∧ s.east.tx.held = []) ∧
  (s.west.link ≠ .up → s.queues.fallUrgent = [] ∧ s.queues.fallOrdinary = [] ∧ s.west.tx.held = []) ∧
  ∀ h ∈ s.frames, h.frame.fold ≤ 2

/-- R168, R169: every level is 0 to 3, and a level whose flag is UNKNOWN is 0. -/
abbrev Weather.LevelsSound (w : Weather) : Prop :=
  ∀ c ∈ allConditions, (w.conditions.get c).level ≤ 3 ∧
    ((w.conditions.get c).flag = .unknown → (w.conditions.get c).level = 0)

/-- R98, R170: the CLASS2 queue holds at most one PRESENCE frame and at most one CONDITION frame of this station. -/
abbrev Queues.OneAnnouncement (q : Queues) : Prop :=
  q.localClass2.countP (fun h => h.frame.kind == .presence) ≤ 1 ∧
    q.localClass2.countP (fun h => h.frame.kind == .condition) ≤ 1

/-- R122: a slot holds its frames at distances 0 to 7, at most one at each. -/
abbrev Slot.Sound (t : Slot) : Prop := (∀ e ∈ t.frames, e.1 ≤ 7) ∧ (t.frames.map (·.1)).Nodup

/-- R6, R64, R69, R92: in TRANSPARENT the local queues, the return list and the output queues are empty, every peer is ABSENT
and ALERT_N is low. -/
abbrev State.TransparentQuiet (s : State) : Prop :=
  s.start = .transparent →
    s.queues.localUrgent = [] ∧ s.queues.localToll = [] ∧ s.queues.localClass2 = [] ∧ s.queues.localWeather = [] ∧
      s.returns = [] ∧ s.messages = [] ∧ s.peers.entries = [] ∧ s.alertLow = true

end Sys2Proof.Machine
end

