-- ==== Sys2Proof/Certificates/Slice0/Obligations.lean ====
section
/-! DEFINITION. The statements for the provers: what each command does and leaves unchanged, the part's computations, and
the invariants that every step keeps. An equation `t = { s with … := t.… }` says that nothing but the named parts of the
state has changed. Where a clause rests on a choice of the model and not on the manual's words, the docstring names its log
entry. -/

open Sys2Proof Sys2Proof.Machine

/-! ## Steps and whole-machine rules -/

/-- The step takes the command at the front of the queue and carries it out with the queue's rest. The model's choice
(log 3): on an empty queue the part idles. In HELD and READING, where the Timebase is held at 0, nothing changes; otherwise
the Timebase counts one microsecond, and where no pulse falls on it nothing else changes; where one source's pulse does, the
step is that pulse's row, with ACK_N at its last reported level. -/
def Obligations.StepTakesTheFrontCommand : Prop :=
  (∀ (c : Instr) (s : State), step { s with pending := c :: s.pending } = exec c s) ∧
  ∀ s : State, s.pending = [] →
    ((s.start = .held ∨ s.start = .reading) → step s = .next s) ∧
    ((s.start = .running ∨ s.start = .reReading ∨ s.start = .transparent) →
      ((∀ n ∈ [s.image.lineBit, s.image.serviceBit, s.image.sampleBit],
          (s.timebase + 1).toNat % 2 ^ (n + 1) ≠ 2 ^ n) →
        step s = .next { s with timebase := s.timebase + 1 }) ∧
      ∀ x, s.PulseNext x → s.until x = 1 → step s = exec (x.row s.pins.ackLow) s)

/-- No command touches the queue of waiting commands. The image in force changes only by the commands that start the part
(R3, R6, R8), the Timebase only by those and the three pulses (R9), the source table only by those and the presentation of
a frame (R154, R158). R1, R3, R7, R8: the start state changes only by a full reset, its release, the end of an image read,
and SERVICE_RESTART. -/
def Obligations.WhatChangesTheMachine : Prop :=
  (∀ (c : Instr) (s t : State), exec c s = .next t →
    t.pending = s.pending ∧
    (¬ Starting c →
      t.image = s.image ∧ (¬ Pulsing c → t.timebase = s.timebase) ∧ (¬ Presenting c → t.collector = s.collector))) ∧
  ∀ (c : Instr) (s t : State), exec c s = .next t → t.start ≠ s.start →
    (c = .fullReset ∧ t.start = .held) ∨
    (c = .resetRelease ∧ s.start = .held ∧ t.start = .reading) ∨
    (∃ a, c = .readAttemptDone a ∧
      ((s.start = .reading ∧ (t.start = .running ∨ t.start = .transparent)) ∨
        (s.start = .reReading ∧ t.start = .running))) ∨
    (c = .serviceRestart ∧ s.start = .running ∧ t.start = .reReading)

/-! ## Start-up (chapter 1) -/

/-- R1, R19, R76, R154: the part with a full reset in force, which meets everything that the steps keep. -/
def Obligations.ResetValues : Prop :=
  State.reset.start = .held ∧ State.reset.timebase = 0 ∧ State.reset.pending = [] ∧
  State.reset.store.free = List.range 256 ∧ (∀ u ∈ allUsers, (State.reset.store.users.get u).count = 0) ∧
  State.reset.counters = [] ∧ State.reset.returns = [] ∧ State.reset.frames = [] ∧ State.reset.messages = [] ∧
  State.reset.journal.entries = [] ∧ State.reset.peers.entries = [] ∧ State.reset.collector.sources = [] ∧
  (∀ p ∈ [Port.west, Port.east], (State.reset.port p).link = .down ∧ (State.reset.port p).cause = .start ∧
    (State.reset.port p).score = 0 ∧ (State.reset.port p).errorState = .active ∧ (State.reset.port p).rx = .hunting) ∧
  State.reset.alertLow = false ∧
  (∀ l ∈ [Link.toll, .sign, .weather, .service], State.reset.readyOut l = false ∧ (State.reset.link l).rx = .hunting ∧
    (State.reset.link l).sending = false) ∧
  let s := State.reset
  s.store.SharesKept ∧ s.CellsConserved ∧ s.switchboard.Sound ∧ s.switchboard.InOrder 0 ∧ ReturnsBounded s.returns ∧
    s.journal.Bounded ∧ s.AttemptsMatched ∧ s.west.Sound ∧ s.east.Sound ∧ s.ReceiversSound ∧ s.FoldsQuiet ∧
    s.holdback.Bounded s.image.address ∧ s.weather.LevelsSound ∧ s.queues.OneAnnouncement ∧
    (∀ c ∈ allPlaces, (s.voice c).slot.Sound) ∧ (s.peer s.image.address).state = .absent ∧ s.TransparentQuiet

/-- R1: FULL_RESET abandons all work in every state and leaves the part HELD; RESET_RELEASE then makes it READING. That the
levels of the inputs stay, and which values the image in force, the shares and the like hold before an image is accepted, is
the model's choice (logs 4 and 5), as is that the queue of waiting commands stays. R2: what the Loader does on the bus in a
read attempt; an attempt that fails before the third is counted, in READING and in RE_READING alike, and is followed by a
pause; the end of the pause lets the next attempt begin. That a failed attempt takes none of the later steps is the model's
choice (log 43). -/
def Obligations.ResetReleaseAndReadAttempts : Prop :=
  ((∀ s : State, exec .fullReset s = .next { State.reset with pins := s.pins, pending := s.pending }) ∧
   ∀ s : State, s.start = .held → exec .resetRelease s = .next { s with start := .reading, loader := {} }) ∧
  (∀ (s : State) (a : BusAnswers), (s.start = .reading ∨ s.start = .reReading) → s.loader.paused = false →
    s.loader.fails < 2 → BusFails a →
    ∃ t, exec (.readAttemptDone a) s = .next t ∧
      t.loader = { s.loader with fails := s.loader.fails + 1, paused := true } ∧
      Counts [.station .loaderReadFailures] s t ∧
      t = { s with loader := t.loader, counters := t.counters }) ∧
  (∀ s : State, (s.start = .reading ∨ s.start = .reReading) → s.loader.paused = true →
    exec .readRetryPauseEnd s = .next { s with loader := { s.loader with paused := false } }) ∧
  ∀ a : BusAnswers,
    (a.released = none → BusAnswers.attempt a = (List.replicate 9 .clockPulse, .dataLineStuck)) ∧
    ∀ n, a.released = some n →
      let freed : List BusAction := if n = 0 then [] else List.replicate n.val .clockPulse ++ [.stop]
      (a.writeAck = true → a.wordAck = true → a.readAck = true →
        BusAnswers.attempt a =
          (freed ++ [.start, .send 0xA0, .send 0, .repeatedStart, .send 0xA1] ++ List.replicate 119 (.receive true) ++
            [.receive false, .stop], .bytes a.bytes)) ∧
      (a.writeAck = false → BusAnswers.attempt a = (freed ++ [.start, .send 0xA0], .noBusAck)) ∧
      (a.writeAck = true → a.wordAck = false →
        BusAnswers.attempt a = (freed ++ [.start, .send 0xA0, .send 0], .noWordAck)) ∧
      (a.writeAck = true → a.wordAck = true → a.readAck = false →
        BusAnswers.attempt a = (freed ++ [.start, .send 0xA0, .send 0, .repeatedStart, .send 0xA1], .noBusAck))

/-- R3, R5: an image that passes at a full reset puts the part in RUNNING with the clamped image in force, the Timebase at
0, both link states DOWN, every cell free, the link receivers hunting and no alert latched, and its clamped fields are counted
(R4). R3, R6: an image that fails at a
full reset, or a third failed attempt, puts it in TRANSPARENT with the defaults, no roles and address 0, and CONFIG_FAULT
latched. -/
def Obligations.ImageReadEndsTheReset : Prop :=
  (∀ (s : State) (n : Fin 10) (raw : List Byte), s.start = .reading → s.loader.paused = false → raw.length = 120 →
    Passing raw →
    ∃ t, exec (.readAttemptDone { released := some n, bytes := raw }) s = .next t ∧ t.start = .running ∧
      t.image = imageOf raw ∧ t.loader.clamped = clampedCount raw ∧
      t.timebase = 0 ∧ t.west.link = .down ∧ t.east.link = .down ∧ t.frames = [] ∧ t.returns = [] ∧
      t.journal.entries = [] ∧ t.peers.entries = [] ∧ t.alerts = [] ∧ (∀ l, (t.link l).rx = .hunting) ∧
      (∀ u ∈ allUsers, (t.store.users.get u).count = 0 ∧
        (t.store.users.get u).guarantee = (t.image.shares.get u).guarantee ∧
        (t.store.users.get u).maximum = (t.image.shares.get u).maximum) ∧
      t.store.free = List.range 256 ∧
      t.counter (.station .loaderReadFailures) = s.counter (.station .loaderReadFailures) ∧
      t.pins = s.pins ∧ t.pending = s.pending) ∧
  ∀ (s : State) (a : BusAnswers), s.start = .reading → EndsTheRead a s → (¬ BusFails a → ¬ Passing a.bytes) →
    ∃ t, exec (.readAttemptDone a) s = .next t ∧ t.start = .transparent ∧ t.image = {} ∧ t.timebase = 0 ∧
      (t.alert .configFault).latched = true ∧ t.frames = [] ∧ t.store.free = List.range 256 ∧
      ∀ l, t.readyOut l = false

/-- R4, R77: what the Loader makes of each field of the image table (13.5): one within its range is in force as the image gives
it, one outside it becomes what the table of R4 or the text of R77 says, and a field without a range is as it stands. The count
of clamped fields has one for each field so changed, and one for a replacement of the shares by the defaults. The model's
reading (log 42): the conditions priority and the incident priority are in force as 1 to 7 (R179) and are not counted, and the
counts that the table reads with 0 taken as 1 are in force as given and are not counted. -/
def Obligations.ImageFieldsInRange : Prop :=
  ∀ raw : List Byte, let i := imageOf raw
    let b (k : Nat) : Nat := (byteAt raw k).toNat
    let clamps (lo hi x v : Nat) : Prop :=
      (lo ≤ x → x ≤ hi → v = x) ∧ (x < lo → v = lo) ∧ (hi < x → v = hi)
    let raises (lo x v : Nat) : Prop := (lo ≤ x → v = x) ∧ (x < lo → v = lo)
    let addr (k : Nat) (a : Addr) : Prop := (b k ≤ 63 → a.toNat = b k) ∧ (63 < b k → a = 0)
    (∃ service, clamps 10 16 (b 17) service ∧
      (i.lineBit < service → i.serviceBit = service) ∧ (service ≤ i.lineBit → i.serviceBit = i.lineBit + 1)) ∧
    clamps 6 12 (b 16) i.lineBit ∧ clamps 17 21 (b 18) i.sampleBit ∧ i.lineBit < i.serviceBit ∧ i.serviceBit ≤ 16 ∧
    raises 2 (b 19) i.lossLimit ∧ raises 16 (natAt raw 20) i.joinHoldOff ∧
    (∀ x ∈ [(55, i.smoothing.ta), (56, i.smoothing.ts), (57, i.smoothing.h), (58, i.smoothing.w), (59, i.smoothing.v),
        (47, i.rates.toll), (48, i.rates.sign), (49, i.rates.weather), (50, i.rates.service)],
      clamps 0 7 (b x.1) x.2) ∧
    clamps 1 255 (b 44) i.holdbackQuota ∧ clamps 60 3600 (natAt raw 67) i.reportInterval ∧
    (∀ x ∈ [(0, i.conditions.ice), (1, i.conditions.wind), (2, i.conditions.fog)],
      x.2.r1 = intAt raw (69 + 6 * x.1) ∧ x.2.r2 = max (intAt raw (71 + 6 * x.1)) x.2.r1 ∧
      x.2.r3 = max (intAt raw (73 + 6 * x.1)) x.2.r2 ∧ x.2.hysteresis = natAt raw (87 + 2 * x.1) ∧
      x.2.pUp = b (93 + x.1) ∧ x.2.pDown = b (96 + x.1) ∧
      x.2.patternWarn = byteAt raw (99 + 2 * x.1) ∧ x.2.patternSevere = byteAt raw (100 + 2 * x.1)) ∧
    (i.roles.phone = match b 1 / 64 with | 1 => .roadside | 2 => .switchboard | _ => .none) ∧
    (i.roles.toll = match b 1 / 16 % 4 with | 1 => .reader | 2 => .collector | _ => .none) ∧
    (i.roles.weather = match b 1 / 4 % 4 with | 1 => .station | 2 => .home | _ => .none) ∧
    (i.roles.sign = match b 1 % 4 with | 1 => .signs | 2 => .centre | _ => .none) ∧
    (if i.roles.sign = .signs then clamps 1 4 (b 2) i.roles.signCount else i.roles.signCount = b 2) ∧
    (addr 3 i.phonePrimary ∧ addr 4 i.phoneAlternate ∧ addr 5 i.tollPrimary ∧ addr 6 i.tollAlternate ∧
      addr 7 i.weatherPrimary ∧ addr 8 i.weatherAlternate ∧ addr 9 i.maintenance ∧
      ∀ k : Fin 4, ∃ a, i.zoneStations[k.val]? = some a ∧ addr (10 + k.val) a) ∧
    (let given := rawShares raw
     let total := (allUsers.map (fun u => (given.get u).guarantee)).sum
     (total ≤ 256 → ∀ u ∈ allUsers, (i.shares.get u).guarantee = (given.get u).guarantee ∧
       (i.shares.get u).maximum = max (given.get u).guarantee (given.get u).maximum) ∧
     (256 < total → i.shares = ⟨⟨24, 48⟩, ⟨24, 48⟩, ⟨12, 24⟩, ⟨32, 96⟩, ⟨8, 32⟩, ⟨4, 16⟩, ⟨16, 64⟩⟩)) ∧
    (i.recovery, i.warning, i.warningClear, i.isolation, i.returnTimeout, i.starveLimit, i.holdbackPeriod) =
      (natAt raw 22, b 24, b 25, b 26, b 41, b 42, b 43) ∧
    (i.presenceInterval, i.peerLossLimit, i.retryLimit, i.parkInterval, i.statusTimeout, i.stepTa, i.stepTs, i.stepH) =
      (b 45, b 46, b 51, natAt raw 52, b 54, b 60, b 61, b 62) ∧
    (i.staleLimit, i.wetBonus, i.staleClear, i.incidentDelay, i.clearDelay, i.showTimeout, i.faultRepeat) =
      (b 63, b 64, natAt raw 65, natAt raw 109, natAt raw 111, b 113, b 114) ∧
    i.enable = (wordAt raw 115).extractLsb' 0 9 ∧ i.groupCode = (byteAt raw 14).extractLsb' 0 6 ∧
    i.groupMask = (byteAt raw 15).extractLsb' 0 6 ∧ i.address = (byteAt raw 0).extractLsb' 0 6 ∧
    clamps 1 7 (b 105) i.conditionsPriority ∧ clamps 1 7 (b 106) i.incidentPriority ∧
    i.incidentPattern = byteAt raw 107 ∧ i.incidentSet = (byteAt raw 108).extractLsb' 0 4 ∧
    (let given := rawShares raw
     let r (k : Nat) : Int := intAt raw (69 + 2 * k)
     let altered : List Bool :=
      [b 1 / 64, b 1 / 16 % 4, b 1 / 4 % 4, b 1 % 4].map (fun c => decide (c = 3)) ++
      [3, 4, 5, 6, 7, 8, 9, 10, 11, 12, 13].map (fun k => decide (63 < b k)) ++
      [47, 48, 49, 50, 55, 56, 57, 58, 59].map (fun k => decide (7 < b k)) ++
      [decide (b 1 % 4 = 1 ∧ (b 2 < 1 ∨ 4 < b 2)), decide (b 16 < 6 ∨ 12 < b 16),
        decide (b 17 < 10 ∨ 16 < b 17 ∨ b 17 ≤ i.lineBit), decide (b 18 < 17 ∨ 21 < b 18), decide (b 19 < 2),
        decide (natAt raw 20 < 16), decide (b 44 < 1), decide (natAt raw 67 < 60 ∨ 3600 < natAt raw 67)] ++
      [0, 3, 6].flatMap (fun k => [decide (r (k + 1) < r k), decide (r (k + 2) < max (r (k + 1)) (r k))]) ++
      allUsers.map (fun u => decide ((given.get u).maximum < (given.get u).guarantee)) ++
      [decide (256 < (allUsers.map (fun u => (given.get u).guarantee)).sum)]
     clampedCount raw = altered.count true)

/-- R7: SERVICE_RESTART begins a service restart; everything but the start state, the loader, the slot, the note of the Peer
Table's entries and the messages in reception, which will be discarded without a count, stays. R8: it ends in RUNNING with
the new image in force, but for the address and the three pulse bits, or, when the image or the third attempt fails, with the
kept image and CONFIG_FAULT latched; the latches and counters are cleared; the Timebase, both ports, the peers' states and
the source table are not touched. The model's choice (log 58): the count of clamped fields is then that of the new raw image
whole, its pulse bits included. -/
def Obligations.ServiceRestarts : Prop :=
  (∀ (s : State) (j : Job), s.start = .running → s.maint.slot = some j → j.command = .serviceRestart → j.stage = .taken →
     ∃ t, exec .serviceRestart s = .next t ∧
       (∀ l, t.link l = match (s.link l).rx with
         | .hunting => s.link l
         | .receiving _ bytes => { s.link l with rx := .receiving .dropped bytes }) ∧
       t = { s with
         start := .reReading
         loader := { clamped := s.loader.clamped }
         maint := { s.maint with slot := some { j with stage := .restarting } }
         peers := { s.peers with noted := s.peers.entries }
         links := t.links }) ∧
  ∀ (s : State) (a : BusAnswers), s.start = .reReading → EndsTheRead a s →
    let passes : Prop := ¬ BusFails a ∧ Passing a.bytes
    ∃ t, exec (.readAttemptDone a) s = .next t ∧ t.start = .running ∧
      (passes → t.image = { imageOf a.bytes with
        address := s.image.address, lineBit := s.image.lineBit, serviceBit := s.image.serviceBit
        sampleBit := s.image.sampleBit }) ∧
      (¬ passes → t.image = s.image) ∧
      t.loader = { clamped := if passes then clampedCount a.bytes else s.loader.clamped } ∧
      ((t.alert .configFault).latched = true ↔ ¬ passes) ∧
      (∀ e ∈ [Alert.portWarning, .portIsolated, .foldChange, .addressClash, .switchboardUnreachable, .signFault,
        .weatherStale], (t.alert e).latched = false ∧ t.counter (.occurrence e) = 0) ∧
      (∀ p c, t.counter (.port p c) = 0) ∧ (∀ l c, t.counter (.link l c) = 0) ∧
      t.counter (.station .loaderReadFailures) = 0 ∧
      t.timebase = s.timebase ∧ t.west = s.west ∧ t.east = s.east ∧ t.peers.entries = s.peers.entries ∧
      t.collector = s.collector ∧ t.returns.all (fun e => e.phase == .pending) ∧ t.pins = s.pins

/-- R8: the state that each block applies at the end of a service restart, with the image then in force: the return list,
which gives the outcome of each HELD entry to its owner in the order of resolution, the Toll Journal, under the new image's
retry limit, or the sign centre, and then abandons every other entry (R73; OutcomesMoveTheEntry says what an outcome does in
the journal); the Holdback Unit (R91), the Phone Unit (R124), the Switchboard Unit (R140), the Toll Journal (R152), the collector (R158), the Weather Unit
(R175), the Sign Unit (R189), the Peer Table's timer and PRESENCE frame (R100) and the Maintenance Unit (R196). The CALL and
VOICE frames that wait leave the URGENT queue and free their cells, and RELEASE goes for each line with a call, to the party
of each channel that holds one, and to each waiting call. Signs keep CENTRE and INCIDENT entries, the incident state follows
an off-hook count of 0, and each sign is sent a SHOW of its selection under the zone levels of that moment. A job other than
the SERVICE_RESTART is abandoned, the remote wait ends with ANSWER(TIMEOUT), the unit's STATUS frames leave CLASS2, and then
the answer of the SERVICE_RESTART is made, TAKEN or KEPT_IMAGE. R84: the shares of a new image are adopted where every user's
count is within its new maximum and the free cells cover the unused new guarantees, and the old ones are kept elsewhere, which
is counted. The model's choices: the order of the blocks (log 6), a hook check at a ROADSIDE station alone (log 13), the
counters of an abandoned wait (log 37), that the lines send RELEASE, and the signs take their SHOWs, lowest first (log 45),
that cells given up together are freed oldest first (log 64), and that an entry that R152 parks latches its alert (log 31). -/
def Obligations.RestartStates : Prop :=
  (∀ (s : State) (a : BusAnswers), s.start = .reReading → EndsTheRead a s →
    let resolved (k : ReturnKind) : List (ReturnEntry × FrameOutcome) :=
      s.returns.filterMap (fun r => match r.phase with
        | .held o => if r.kind = k then some (r, o) else none
        | .pending | .awaiting => none)
    let abandoned (e : JournalEntry) : Bool :=
      e.state == .inFlight && s.returns.any (fun r => !r.isHeld && r.kind == .toll && r.seq == e.seq)
    ∃ t, exec (.readAttemptDone a) s = .next t ∧
      let v : State := (resolved .toll).foldl (fun v x => v.journalOutcome x.1.seq x.2)
        { s with image := t.image, counters := [], alerts := [] }
      (let room := 16 - s.outcomesHeld
       (∀ c ∈ [StationCounter.confirmed, .partialSeen, .backoffs, .resends, .parkings, .noticesDropped],
         t.counter (.station c) = v.counter (.station c)) ∧
       t.counter (.station .outcomesDropped) = Nat.repeat satInc ((resolved .sign).length - room) 0 ∧
       t.counter (.station .returnAbandoned) = Nat.repeat satInc (s.returns.countP (fun r => !r.isHeld)) 0 ∧
       ((t.alert .journalParked).latched = true ↔
         (v.alert .journalParked).latched = true ∨ ∃ e ∈ v.journal.entries, abandoned e = true ∧ e.parkTurn = true) ∧
       (t.link .toll).queue.filter (fun m => m.kind == 0x03) = (v.link .toll).queue.filter (fun m => m.kind == 0x03) ∧
       (s.image.roles.sign = .centre → t.image.roles.sign = .centre →
         (t.link .sign).queue = (s.link .sign).queue ++ ((resolved .sign).take room).map (fun x =>
           { kind := 0x15, tag := x.1.tag, holder := .outcome
             body := [match x.2 with
               | .taken => 1 | .partly => 2 | .refused => 3 | .untaken => 4 | .damaged => 5 | .lost => 6] }))) ∧
      (let h := t.holdback
       h.entries = [] ∧ h.starved = false ∧ h.inserted = 0 ∧ h.repeating = Timer.stopped ∧
         h.period = Timer.armRepeating t.image.holdbackPeriod ∧
         h.starvation = (if t.queues.starving then Timer.arm t.image.starveLimit else Timer.stopped)) ∧
      (∀ h ∈ t.queues.localUrgent, h.frame.kind.urgent = true →
        h.frame.kind = .call ∧ byteAt h.frame.payload 0 = 5) ∧
      (let ours (h : Held) : Bool := h.frame.kind == .call || h.frame.kind == .voice
        let line (i : Fin 4) : List Call :=
          match (s.line i).state with
          | .requesting => if t.phoneHome = 0 then [] else [{ dest := t.phoneHome, line := i, message := .release }]
          | .queued | .alerting | .talking | .clearing | .ringing =>
            (s.line i).partner.toList.map (fun a => { dest := a, line := i, message := .release })
          | .idle | .hookCheck | .ended => []
        let toParty (p : Party) : Call := { dest := p.station, line := p.line, message := .release }
        let channel (c : Fin 16) : List Call :=
          match (s.channel c).state with
          | .offered | .talking | .callingBack | .clearing => (s.channel c).party.toList.map toParty
          | .closed | .free => []
        let released : List Call :=
          allFour.flatMap line ++ allSixteen.flatMap channel ++ s.switchboard.waiting.map (fun w => toParty w.party)
        let store : Store :=
          (s.queues.localUrgent.filter ours).foldl (fun st h => if h.user = .journal then st else st.release h.user h.cell)
            v.store
        let cells := (store.cellsFor released.length).1
        let missing := released.length - cells.length
        t.queues.localUrgent =
          s.queues.localUrgent.filter (fun h => !ours h && h.frame.kind != .holdback) ++
            ((callFrames s released).zip cells).map (fun e => { frame := e.1, cell := e.2, user := .urgentOut }) ∧
        t.seqs.call = s.seqs.call + BitVec.ofNat 16 cells.length ∧
        t.counter (.station .urgentNotSent) = Nat.repeat satInc missing 0 ∧
        ((t.alert .cellShortage).latched = true ↔ missing ≠ 0)) ∧
      t.phone.inStep = s.phone.inStep ∧ t.phone.loss = s.phone.loss ∧
      (∀ i, let l := s.line i
        t.line i = if t.image.roles.phone = .roadside ∧ 0 < l.offRun then
            { state := .hookCheck, offRun := 1, onRun := l.onRun }
          else { offRun := l.offRun, onRun := l.onRun }) ∧
      (∀ c, t.voice c = { s.voice c with slot := {} }) ∧
      (t.image.roles.phone = .none → t.phone.out = []) ∧
      t.switchboard = { arrival := s.switchboard.arrival } ∧
      t.journal.park = Timer.armRepeating t.image.parkInterval ∧ t.journal.due = none ∧
      (∀ e ∈ t.journal.entries, e.backoff = Timer.stopped) ∧
      (let kept (j : Journal) := j.entries.map (fun e => (e.seq, e.readerTag, e.record, e.cell))
       kept t.journal = kept v.journal) ∧
      (s.peers.noted = s.peers.entries → t.image.roles.toll ≠ .reader →
        t.journal.entries = v.journal.entries.map (fun e =>
          { (if abandoned e then { e with state := if e.parkTurn then .parked else .waiting, parkTurn := false }
             else e) with backoff := Timer.stopped })) ∧
      (t.image.roles.toll ≠ .collector → ∀ m ∈ (t.link .toll).unbegun, m.kind ≠ 0x04) ∧
      t.weather = { report :=
        if t.image.roles.weather = .station then Timer.armRepeating t.image.reportInterval else Timer.stopped } ∧
      (t.image.roles.weather ≠ .home → ∀ m ∈ (t.link .weather).unbegun, m.kind ≠ 0x22 ∧ m.kind ≠ 0x23) ∧
      (∀ h ∈ t.queues.localClass2, h.frame.kind = .condition → h.frame.payload = [8, 8, 8]) ∧
      t.counter (.station .levelChanges) =
        Nat.repeat satInc (allConditions.countP (fun c => (s.weather.conditions.get c).shown != ⟨0, .unknown⟩)) 0 ∧
      (t.image.roles.sign = .signs →
        t.signs.zone = ⟨t.zoneLevel .ice, t.zoneLevel .wind, t.zoneLevel .fog⟩ ∧
        t.signs.conditions = conditionsEntry t.image t.signs.zone ∧
        (let kept := s.image.roles.sign = .signs
         (t.signs.incident, t.signs.incidentTimer) =
          (if ¬ kept then (.quiet, {})
           else match s.signs.incident with
            | .rising => (.quiet, Timer.stopped)
            | .active => (.falling, Timer.arm t.image.clearDelay)
            | .quiet | .falling => (s.signs.incident, s.signs.incidentTimer)) ∧
         (∀ i : Fin 4, t.image.roles.signCount ≤ i.val → t.sign i = {}) ∧
         (∀ i : Fin 4, i.val < t.image.roles.signCount →
          let was : SignRec := if kept then s.sign i else {}
          let entries : SignRec := { centre := was.centre, incident := was.incident }
          let sel := entries.select t.image t.signs.conditions
          let n := nextShow was.showCounter
          let body := ({ entries with selection := sel } : SignRec).showBody i n
          t.sign i = { entries with
            selection := sel, showCounter := n, handover := .sending
            outstanding := some { number := n, selection := sel, body := body } } ∧
          { kind := 0x11, body := body, holder := .sign i } ∈ (t.link .sign).queue) ∧
         ((t.link .sign).queue.filter (fun m => m.kind == 0x11 && m.holder != .nobody)).map (·.holder) =
          (allFour.filter (fun i => decide (i.val < t.image.roles.signCount))).map Holder.sign)) ∧
      (t.image.roles.sign = .none ∨ (t.image.roles.sign = .centre ∧ s.image.roles.sign ≠ .centre) → t.signs = {}) ∧
      (t.image.roles.sign = .centre → s.image.roles.sign = .centre → t.signs = { s.signs with buffer := none }) ∧
      (s.image.roles.sign = .centre → ∀ h ∈ t.queues.localClass2, h.frame.kind ≠ .sign) ∧
      (t.image.roles.sign ≠ s.image.roles.sign → ∀ m ∈ (t.link .sign).unbegun, m.holder ≠ .outcome) ∧
      t.peers.timer = Timer.armRepeating t.image.presenceInterval ∧
      (∀ h ∈ t.queues.localClass2, h.frame.kind = .presence → h.frame.payload = t.presenceNow) ∧
      (let code : Result := if ¬ BusFails a ∧ Passing a.bytes then .taken else .keptImage
       let answers (b : Addr) (tag : Byte) (r : Result) : List Byte := [b.setWidth 8, tag, BitVec.ofNat 8 r.code]
       let job := s.maint.slot.filter (fun j => j.stage == .restarting)
       let onLink := job.filter (fun j => j.requester == .serviceLink)
       let told (j : Job) (f : Frame) : Prop := match j.requester with
         | .serviceLink => False
         | .station d => f = localFrame s .status d false j.tag s.seqs.status (3 :: answers s.image.address j.tag code)
       t.maint.wait = none ∧
       (t.maint.slot = none ∨ t.maint.slot = job.map (fun j => { j with stage := .answering code })) ∧
       (∀ h ∈ t.queues.localClass2, h.frame.kind = .status → ∃ j, job = some j ∧ told j h.frame) ∧
       (s.link .service).queue <+: (t.link .service).queue ∧
       (s.store.SharesKept → (s.store.users.get .ordinaryOut).count + 3 ≤ (s.store.users.get .ordinaryOut).guarantee →
        t.maint.slot = none ∧
        (∀ j, job = some j → j.requester ≠ .serviceLink → ∃ h ∈ t.queues.localClass2, told j h.frame) ∧
        (t.link .service).queue.map (fun m => (m.kind, m.body)) =
          (s.link .service).queue.map (fun m => (m.kind, m.body)) ++
            s.maint.wait.toList.map (fun w => (0x33, answers w.target w.tag .timeout)) ++
            onLink.toList.map (fun j => (0x33, answers s.image.address j.tag code))))) ∧
  ∀ (s : State) (shares : PerUser Share) (origin : ShareOrigin),
    let t := s.takeShares shares origin
    let fits : Prop := (∀ u ∈ allUsers, (s.store.users.get u).count ≤ (shares.get u).maximum) ∧
      (allUsers.map (fun u => (shares.get u).guarantee - (s.store.users.get u).count)).sum ≤ s.store.free.length
    (fits → t = { s with store := t.store } ∧ t.store.free = s.store.free ∧ t.store.origin = origin ∧
      ∀ u ∈ allUsers, t.store.users.get u =
        { s.store.users.get u with guarantee := (shares.get u).guarantee, maximum := (shares.get u).maximum }) ∧
    (¬ fits → Counts [.station .sharesKept] s t ∧
      t = { s with store := { s.store with origin := .kept }, counters := t.counters })

/-! ## Timebase and timers (R9, R10) -/

/-- R9: the next instant at which bit n goes from 0 to 1 is reached by `untilPulse`, no instant before it is one, and the one
after it comes 2^(n+1) microseconds later. No pulse is left out: where another source's pulse comes first, a pulse's row does
what that pulse's row does and then itself. That the rows of the pulses let the time pass is the model's choice (log 3), as
is that the characters and symbols of a LINE_PULSE come before any of it (log 7). -/
def Obligations.PulseInstants : Prop :=
  (∀ (n : Nat) (t : BitVec 24), n ≤ 22 →
    1 ≤ untilPulse n t.toNat ∧ untilPulse n t.toNat ≤ 2 ^ (n + 1) ∧
    (t + BitVec.ofNat 24 (untilPulse n t.toNat)).toNat % 2 ^ (n + 1) = 2 ^ n ∧
    (∀ k, 1 ≤ k → k < untilPulse n t.toNat → (t + BitVec.ofNat 24 k).toNat % 2 ^ (n + 1) ≠ 2 ^ n) ∧
    (t.toNat % 2 ^ (n + 1) = 2 ^ n → untilPulse n t.toNat = 2 ^ (n + 1))) ∧
  ∀ s : State, s.awake = true →
    (∀ first, s.PulseNext first →
      ∃ t, exec (first.row s.pins.ackLow) s = .next t ∧ ∀ x, x ≠ first → ∀ low, exec (x.row low) s = exec (x.row low) t) ∧
    ∀ chars symbols, exec (.linePulse ⟨chars, symbols⟩) s = exec (.linePulse {}) ((s.hearAll chars).receiveAll symbols)

/-- R10: a timer armed with c (0 taken as 1) expires at the c-th pulse after the arming and not before; one that repeats is
then as it was at its arming, and any other has stopped. A stopped timer does not expire. -/
def Obligations.TimersExpireAtTheirCount : Prop :=
  ∀ (c k : Nat),
    (k < max c 1 → ((Timer.arm c).pulses k).expired = false ∧ ((Timer.armRepeating c).pulses k).expired = false) ∧
    ((Timer.arm c).pulses (max c 1)).expired = true ∧
    ((Timer.arm c).pulses (max c 1)).take = Timer.stopped ∧
    ((Timer.armRepeating c).pulses (max c 1)).expired = true ∧
    ((Timer.armRepeating c).pulses (max c 1)).take = Timer.armRepeating c ∧
    (Timer.stopped.pulses k).expired = false

/-- R10, R14, R27, R37: a line pulse that is the next pulse is counted by the timers of both ports and the gap timers of the
links, and makes each port owe a span word, which an IDLE transmitter begins at once with the span state and fault flag of
the link record at that moment. The model's choices: the row moves the Timebase to the next instant of its bit (log 3); the
links receive the characters before it, or none of them where one ends a message, and the ports their symbols, or none of
them where one brings a row of its own (log 7); an ABORT that an IDLE transmitter sent last is no longer shown (log 52); the
span word comes before the expiry of a loss, hold-off or recovery timer that the same pulse ends, and shows the record before
it (log 59). -/
def Obligations.LinePulseOwesSpanWords : Prop :=
  ∀ (s : State) (chars : List (Link × LinkChar)) (symbols : List (Port × RxSymbol)), s.awake = true →
    s.PulseNext .line →
    let v := s.hearAll chars
    let u := v.receiveAll symbols
    let sends (r : PortRec) : SpanState × Bool :=
      match r.link with
      | .down => (.notReady, !r.hearing)
      | .settling => (.notReady, false)
      | .joining => (.ready, false)
      | .up => (.joined, false)
      | .isolated => (.notReady, true)
    (∀ w, s.hearQuietly chars = some w → v = w) ∧ (s.hearQuietly chars = none → v = s) ∧
    (∀ w, v.receiveQuietly symbols = some w → u = w) ∧ (v.receiveQuietly symbols = none → u = v) ∧
    ∃ t, exec (.linePulse ⟨chars, symbols⟩) s = .next t ∧
      t.timebase = s.timebase + BitVec.ofNat 24 (s.until .line) ∧
      (∀ l, t.link l = { u.link l with gap := (u.link l).gap.tick }) ∧
      (∀ p,
        let r := u.port p
        let ticked : PortRec :=
          { r with loss := r.loss.tick, holdOff := r.holdOff.tick, recovery := r.recovery.tick, owesSpan := true }
        t.port p = (if r.tx = .idle then
          { ticked with
            spanSent := (sends r).1, faultSent := (sends r).2, aborts := false
            tx := .span (s.image.address ++ BitVec.ofNat 2 (sends r).1.code ++ BitVec.ofBool (sends r).2 ++
              (0 : BitVec 7)) }
          else ticked)) ∧
      t = { u with timebase := t.timebase, west := t.west, east := t.east, links := t.links }

/-- R10, R199: a service pulse that is the next pulse is counted by the service timers, and its sample of ACK_N moves the
acknowledge run; the second low sample in a row clears the latches, but for CONFIG_FAULT, which stays latched in TRANSPARENT,
and is counted. R198: once the blocks have started, ALERT_N is low while CONFIG_FAULT is latched, or, but for TRANSPARENT, while
an event is latched whose flag of the enable set is set; in HELD and READING it is not. That the row moves the Timebase to the
next instant of its bit is the model's choice (log 3). -/
def Obligations.AckSampleClearsOnce : Prop :=
  (∀ s : State,
    let flags : List (Alert × Nat) :=
      [(.portWarning, 0), (.portIsolated, 1), (.foldChange, 2), (.addressClash, 3), (.cellShortage, 4), (.journalParked, 5),
        (.switchboardUnreachable, 6), (.signFault, 7), (.weatherStale, 8)]
    ((s.start = .held ∨ s.start = .reading) → s.alertLow = false) ∧
    (s.start = .transparent → (s.alertLow = true ↔ (s.alert .configFault).latched = true)) ∧
    ((s.start = .running ∨ s.start = .reReading) → (s.alertLow = true ↔ (s.alert .configFault).latched = true ∨
      ∃ x ∈ flags, (s.alert x.1).latched = true ∧ s.image.enable.getLsbD x.2 = true))) ∧
  ∀ (s : State) (low : Bool), s.awake = true → s.PulseNext .service → s.maint.ackRun ≤ 2 →
    ∃ t, exec (.ackSample low) s = .next t ∧
      t.timebase = s.timebase + BitVec.ofNat 24 (s.until .service) ∧
      t.pins = { s.pins with ackLow := low } ∧
      t.maint.ackRun = (if low then min (s.maint.ackRun + 1) 2 else 0) ∧
      (if low = true ∧ s.maint.ackRun = 1 then
        Counts [.station .acks] s t ∧
          (∀ a, ¬ (s.start = .transparent ∧ a = .configFault) → (t.alert a).latched = false) ∧
          (s.start = .transparent → (s.alert .configFault).latched = true → t.alert .configFault = s.alert .configFault)
      else t.counters = s.counters ∧ t.alerts = s.alerts) ∧
      t.returns = s.returns.map (fun e => { e with deadline := e.deadline.tick }) ∧
      t.holdback = { s.holdback with
        starvation := s.holdback.starvation.tick, repeating := s.holdback.repeating.tick
        entries := s.holdback.entries.map (fun e => { e with expiry := e.expiry.tick })
        period := s.holdback.period.tick } ∧
      t.peers = { s.peers with timer := s.peers.timer.tick } ∧
      t.journal = { s.journal with
        entries := s.journal.entries.map (fun e => { e with backoff := e.backoff.tick })
        park := s.journal.park.tick } ∧
      t.phone.loss = s.phone.loss.tick ∧
      (∀ i, t.line i = { s.line i with
        retry := (s.line i).retry.tick, supervision := (s.line i).supervision.tick
        clearing := (s.line i).clearing.tick, ring := (s.line i).ring.tick }) ∧
      t.phone = { s.phone with loss := t.phone.loss, lines := t.phone.lines } ∧
      (∀ c, t.channel c = { s.channel c with
        refresh := (s.channel c).refresh.tick, supervision := (s.channel c).supervision.tick
        ring := (s.channel c).ring.tick, clearing := (s.channel c).clearing.tick }) ∧
      t.switchboard = { s.switchboard with
        channels := t.switchboard.channels
        waiting := s.switchboard.waiting.map (fun w => { w with refresh := w.refresh.tick }) } ∧
      (∀ i, t.sign i = { s.sign i with
        retry := if (s.sign i).retryOnSample then (s.sign i).retry else (s.sign i).retry.tick }) ∧
      t.signs = { s.signs with records := t.signs.records } ∧
      t.maint = { s.maint with
        ackRun := t.maint.ackRun, wait := s.maint.wait.map (fun w => { w with timer := w.timer.tick }) } ∧
      t = { s with
        timebase := t.timebase, pins := t.pins, maint := t.maint, alerts := t.alerts, counters := t.counters
        returns := t.returns, holdback := t.holdback, peers := t.peers, phone := t.phone, switchboard := t.switchboard
        journal := t.journal, signs := t.signs }

/-! ## Weather (chapter 10) -/

/-- R161: a sample pulse that is the next pulse. It is counted by the sample timers; at a STATION in RUNNING the sample work
takes the pending sample, or one with every field missing, through its stages in order: intake, smoothing, the wet flag, the
gust window, the severities and levels from them, the statistics (R171), and the announcement of any change (R170), which
also gives the own-level notice (R179). What the stages compute: the fields of the body (13.4) and their clamping with its
count (R163), the gust figure and the frost margin (R166), the severities (R167), the moves of flag and level (R168), a run of
the level machine (R169) and the statistics (R171). The ninth stage is the row of the report timer, which the pulse may leave
due (log 17). That the row moves the Timebase to the next instant of its bit is the model's choice (log 3). -/
def Obligations.SampleWorkStages : Prop :=
  (∀ s : State, s.awake = true → s.PulseNext .sample →
      let aged (r : SignRec) : SignRec :=
        { r with
          centre := r.centre.map (fun c => { c with lifetime := c.lifetime.tick })
          test := r.test.map (fun e => { e with duration := e.duration.tick })
          retry := if r.retryOnSample then r.retry.tick else r.retry }
      ∃ t, exec .sampleWork s = .next t ∧ t.timebase = s.timebase + BitVec.ofNat 24 (s.until .sample) ∧
        t.weather.report = s.weather.report.tick ∧ t.signs.incidentTimer = s.signs.incidentTimer.tick ∧
        (¬ (s.start = .running ∧ s.image.roles.weather = .station) →
          t.weather = { s.weather with report := t.weather.report } ∧ (∀ i, t.sign i = aged (s.sign i)) ∧
          t = { s with
            timebase := t.timebase, weather := t.weather
            signs := { s.signs with records := t.signs.records, incidentTimer := t.signs.incidentTimer } }) ∧
        (s.start = .running → s.image.roles.weather = .station →
          let x := match s.weather.pendingSample with
            | some body => readSample body
            | none => { fields := ⟨none, none, none, none, none⟩, wet := none }
          let taken (q : Quantity) : Intake := intake s.image x q (s.weather.quantities.get q)
          let missing := allQuantities.countP (fun q => (x.fields.get q).isNone)
          let suspect := allQuantities.countP (fun q => (taken q).suspect)
          let stale := allQuantities.countP (fun q => (taken q).staled)
          let differs := allConditions.countP (fun c =>
            (t.weather.conditions.get c).shown != (s.weather.conditions.get c).shown)
          let raised (k : StationCounter) (n : Nat) : Prop := t.counter (.station k) = Nat.repeat satInc n (s.counter (.station k))
          let waits := s.queues.localClass2.any (fun h => h.frame.kind == .condition)
          let levels := t.ownLevels.toList.map levelByte
          t.weather.pendingSample = none ∧
          (∀ q, t.weather.quantities.get q = (taken q).after) ∧
          t.weather.wet = (match x.wet with | some b => b != 0 | none => s.weather.wet) ∧
          t.weather.gusts = (match x.fields.w with
            | some v => (Quantity.clamp .w v :: s.weather.gusts).take 3
            | none => if (taken .w).staled then [] else s.weather.gusts) ∧
          (∀ c, t.weather.conditions.get c = (s.weather.conditions.get c).move (s.image.conditions.get c)
            s.image.staleClear
            (severity s.image.wetBonus t.weather.quantities t.weather.wet t.weather.gusts c)) ∧
          t.weather.stats =
            s.weather.stats.gather t.weather.quantities t.weather.gusts missing suspect x.clampedCount ∧
          raised .samplesTaken (if s.weather.pendingSample.isSome then 1 else 0) ∧
          raised .samplesAbsent (if s.weather.pendingSample.isSome then 0 else 1) ∧
          raised .fieldsClamped x.clampedCount ∧ raised .fieldsMissing missing ∧ raised .fieldsSuspect suspect ∧
          raised .staleEntries stale ∧ raised .levelChanges differs ∧
          raised .conditionsRefreshed (if differs ≠ 0 ∧ waits = true then 1 else 0) ∧
          raised .conditionsSent (if differs ≠ 0 ∧ waits = false ∧ s.grants .ordinaryOut = true then 1 else 0) ∧
          raised .ordinarySkipped (if differs ≠ 0 ∧ waits = false ∧ s.grants .ordinaryOut = false then 1 else 0) ∧
          t.counter (.occurrence .weatherStale) = Nat.repeat satInc stale (s.counter (.occurrence .weatherStale)) ∧
          (t.alert .weatherStale).latched = ((s.alert .weatherStale).latched || decide (0 < stale)) ∧
          (∀ a, a ≠ .weatherStale → t.alert a = s.alert a) ∧
          (differs = 0 → (∀ i, t.sign i = aged (s.sign i)) ∧
            t = { s with
              timebase := t.timebase, weather := t.weather, counters := t.counters, alerts := t.alerts
              signs := { s.signs with records := t.signs.records, incidentTimer := t.signs.incidentTimer } }) ∧
          (differs ≠ 0 →
            (waits = true → t.store = s.store ∧ t.seqs = s.seqs ∧
              t.queues = { s.queues with
                localClass2 := s.queues.localClass2.map (fun h =>
                  if h.frame.kind = .condition then
                    { h with frame := { h.frame with payload := levels, crc := crc32 levels } }
                  else h) }) ∧
            (waits = false → s.grants .ordinaryOut = true →
              JoinsClass2 (localFrame s .condition 0 false 0 s.seqs.condition levels) s t ∧
              t.seqs = { s.seqs with condition := s.seqs.condition + 1 }) ∧
            (waits = false → s.grants .ordinaryOut = false →
              t.queues = s.queues ∧ t.store = s.store ∧ t.seqs = s.seqs ∧
              t.counter (.refusals .ordinaryOut) = satInc (s.counter (.refusals .ordinaryOut))) ∧
            (s.image.roles.sign = .signs →
              t.signs.zone = ⟨t.zoneLevel .ice, t.zoneLevel .wind, t.zoneLevel .fog⟩ ∧
              t.signs.conditions = conditionsEntry t.image t.signs.zone ∧
              (t.signs.conditions = s.signs.conditions → ∀ i, t.sign i = aged (s.sign i)) ∧
              (t.signs.conditions ≠ s.signs.conditions → ∀ i : Fin 4, i.val < s.image.roles.signCount →
                (t.sign i).centre = (aged (s.sign i)).centre ∧ (t.sign i).test = (aged (s.sign i)).test ∧
                (t.sign i).selection = (aged (s.sign i)).select s.image t.signs.conditions)) ∧
            (s.image.roles.sign ≠ .signs → ∀ i, t.sign i = aged (s.sign i)))) ∧
        t = { s with
          timebase := t.timebase, weather := t.weather, signs := t.signs, links := t.links, queues := t.queues
          holdback := t.holdback, store := t.store, seqs := t.seqs, counters := t.counters, alerts := t.alerts }) ∧
  (∀ body : List Byte,
    let x := readSample body
    let present (i : Nat) (v : Int) : Option Int := if (byteAt body 0).getLsbD i then some v else none
    let signed (k : Nat) : Int := if natAt body k < 32768 then natAt body k else natAt body k - 65536
    let within (low high v : Int) : Int := if v < low then low else if high < v then high else v
    let outside (low high : Int) : Option Int → Nat
      | some v => if v < low ∨ high < v then 1 else 0
      | none => 0
    x.fields = ⟨present 0 (signed 2), present 1 (signed 4), present 2 (natAt body 6), present 3 (natAt body 8),
      present 4 (natAt body 10)⟩ ∧
    x.wet = (if (byteAt body 0).getLsbD 5 then some (byteAt body 1) else none) ∧
    (∀ v, Quantity.clamp .ta v = within (-500) 600 v ∧ Quantity.clamp .ts v = within (-500) 600 v ∧
      Quantity.clamp .h v = within 0 200 v ∧ Quantity.clamp .w v = within 0 700 v ∧
      Quantity.clamp .v v = within 0 10000 v) ∧
    x.clampedCount = outside (-500) 600 x.fields.ta + outside (-500) 600 x.fields.ts + outside 0 200 x.fields.h +
      outside 0 700 x.fields.w + outside 0 10000 x.fields.v + outside 0 1 (x.wet.map (fun b => (b.toNat : Int)))) ∧
  (gust [] = none ∧ ∀ a b c : Int, gust [a] = some a ∧ gust [a, b] = some ((a + b + 1) / 2) ∧
    gust [a, b, c] = some ((a + b + c + 1) / 3)) ∧
  (∀ (bonus : Nat) (q : PerQuantity QuantityRec) (wet : Bool) (gusts : List Int),
    let mean (r : QuantityRec) : Int := (r.smoothed + 128) / 256
    let found (c : Condition) : Option Int := severity bonus q wet gusts c
    let wetter : Int := if wet then bonus else 0
    let dew : Int := mean q.ta - (200 - mean q.h)
    let frost : Int := if mean q.h < 100 then 250 else max (-250) (min 250 (mean q.ts - dew))
    let ice (v : Int) : Int := max (-1000) (min 1000 (v + wetter))
    (q.ts.live = false → found .ice = none) ∧
    (q.ts.live = true → q.ta.live = true → q.h.live = true →
      found .ice = some (ice (min (30 - mean q.ts) (30 - frost)))) ∧
    (q.ts.live = true → q.ta.live = false ∨ q.h.live = false → found .ice = some (ice (30 - mean q.ts))) ∧
    found .wind = (if q.w.live then gust gusts else none) ∧
    found .fog = (if q.v.live then some (10000 - mean q.v) else none)) ∧
  (∀ (k : ConditionConfig) (limit : Nat) (sev : Int) (r : ConditionRec),
    (r.flag = .unknown → r.move k limit none = r ∧ r.move k limit (some sev) =
      ConditionRec.machine k sev { r with level := 0, flag := .valid, up := 0, down := 0, severity := some sev }) ∧
    (r.flag = .valid → r.move k limit none = { r with flag := .held, up := 0, down := 0, held := 0 } ∧
      r.move k limit (some sev) = ConditionRec.machine k sev { r with severity := some sev }) ∧
    (r.flag = .held → r.move k limit (some sev) =
        ConditionRec.machine k sev { r with flag := .valid, up := 0, down := 0, severity := some sev } ∧
      let held := min (r.held + 1) 65535
      (held < max limit 1 → r.move k limit none = { r with held := held }) ∧
      (max limit 1 ≤ held → r.move k limit none = { r with held := held, level := 0, flag := .unknown }))) ∧
  (∀ (k : ConditionConfig) (sev : Int) (r : ConditionRec),
    let raw := (if k.r1 ≤ sev then 1 else 0) + (if k.r2 ≤ sev then 1 else 0) + (if k.r3 ≤ sev then 1 else 0)
    let threshold : Int := if r.level = 1 then k.r1 else if r.level = 2 then k.r2 else k.r3
    let up := min (r.up + 1) 255
    let down := min (r.down + 1) 255
    let falls : Prop := 0 < r.level ∧ sev < threshold - k.hysteresis
    (r.level < raw → max k.pUp 1 ≤ up → r.machine k sev = { r with level := raw, up := 0, down := 0 }) ∧
    (r.level < raw → up < max k.pUp 1 → r.machine k sev = { r with up := up, down := 0 }) ∧
    (raw ≤ r.level → falls → max k.pDown 1 ≤ down →
      r.machine k sev = { r with level := r.level - 1, up := 0, down := 0 }) ∧
    (raw ≤ r.level → falls → down < max k.pDown 1 → r.machine k sev = { r with up := 0, down := down }) ∧
    (raw ≤ r.level → ¬ falls → r.machine k sev = { r with up := 0, down := 0 })) ∧
  ∀ (q : PerQuantity QuantityRec) (gusts : List Int) (missing suspect clamped : Nat) (old : Stats),
    let mean (r : QuantityRec) : Int := (r.smoothed + 128) / 256
    let lower (r : QuantityRec) (was : Option Int) : Option Int :=
      if r.live then some (match was with | some v => min v (mean r) | none => mean r) else was
    let higher (r : QuantityRec) (was : Option Int) : Option Int :=
      if r.live then some (match was with | some v => max v (mean r) | none => mean r) else was
    old.gather q gusts missing suspect clamped =
      { samples := old.samples + 1
        taMin := lower q.ta old.taMin, taMax := higher q.ta old.taMax
        tsMin := lower q.ts old.tsMin, tsMax := higher q.ts old.tsMax
        gustMax :=
          match gust gusts, old.gustMax with
          | some g, some v => some (max v g)
          | some g, none => some g
          | none, was => was
        visMin := lower q.v old.visMin
        missing := min (old.missing + missing) 65535, suspect := min (old.suspect + suspect) 65535
        clamped := min (old.clamped + clamped) 65535, superseded := old.superseded }

/-- R164: the intake of a quantity, row by row of its table, a run stopping at its maximum; a quantity without a step limit
takes every value. R165: the smoothed value, which lies between its previous value and 256 times the accepted sample,
inclusive. -/
def Obligations.IntakeAndSmoothing : Prop :=
  ((∀ (limit : Nat) (r : QuantityRec), let run := min (r.missing + 1) 255
     (r.live = true → run < max limit 1 →
       (r.missed limit).after = { r with missing := run } ∧ (r.missed limit).staled = false) ∧
     (r.live = true → max limit 1 ≤ run →
       (r.missed limit).after = { r with missing := run, live := false } ∧ (r.missed limit).staled = true) ∧
     (r.live = false → (r.missed limit).after = { r with missing := run } ∧ (r.missed limit).staled = false)) ∧
   (∀ (step : Option Nat) (k : Nat) (x : Int) (r : QuantityRec), r.live = false →
     (r.met step k x).after = { live := true, accepted := some x, smoothed := x * 256, missing := 0, suspect := 0 } ∧
       (r.met step k x).suspect = false) ∧
   (∀ (k : Nat) (x : Int) (r : QuantityRec), r.live = true →
     (r.met none k x).after =
       { live := true, accepted := some x, smoothed := smooth k x r.smoothed, missing := 0, suspect := 0 } ∧
       (r.met none k x).suspect = false) ∧
   (∀ (i : Image), i.stepLimit .ta = some i.stepTa ∧ i.stepLimit .ts = some i.stepTs ∧ i.stepLimit .h = some i.stepH ∧
     i.stepLimit .w = none ∧ i.stepLimit .v = none) ∧
   (∀ (step k : Nat) (x a : Int) (r : QuantityRec), r.live = true → r.accepted = some a → (x - a).natAbs ≤ step →
     (r.met (some step) k x).after =
       { live := true, accepted := some x, smoothed := smooth k x r.smoothed, missing := 0, suspect := 0 } ∧
       (r.met (some step) k x).suspect = false) ∧
   (∀ (step k : Nat) (x a : Int) (r : QuantityRec), r.live = true → r.accepted = some a → step < (x - a).natAbs →
     (r.met (some step) k x).suspect = true ∧
     (r.suspect < 2 → (r.met (some step) k x).after = { r with suspect := r.suspect + 1 }) ∧
     (2 ≤ r.suspect → (r.met (some step) k x).after =
       { live := true, accepted := some x, smoothed := x * 256, missing := 0, suspect := 0 }))) ∧
  ∀ (k : Nat) (x S : Int),
    (k = 0 → smooth k x S = x * 256) ∧
    (1 ≤ k → smooth k x S = S + (x * 256 - S + 2 ^ (k - 1)) / 2 ^ k) ∧
    min S (x * 256) ≤ smooth k x S ∧ smooth k x S ≤ max S (x * 256) ∧
    (x ≤ 10000 → S ≤ 2560000 → smooth k x S ≤ 2560000)

/-- R169: a run of the level machine keeps the level or raises it to the raw of this pulse, or lowers it by exactly one step,
and does either only at the pulse at which its count reaches the persistence; a level from 0 to 3 stays so.
STALE_LIMIT_REACHED (R164): the quantity becomes STALE, WEATHER_STALE latches, and a stale wind empties the gust window.
LEVEL_RISE, LEVEL_FALL (R169) and STALE_CLEAR (R168): the level takes the raw, falls by one, or is cleared to 0 with flag
UNKNOWN; the change is counted once and announced, in a new CONDITION frame when none waits and a cell is granted. That each
of these rows makes its one transition on the record as it stands, with the severity last computed, is the model's choice
(log 15). -/
def Obligations.LevelMachineAndTransitionRows : Prop :=
  (∀ (k : ConditionConfig) (sev : Int) (r : ConditionRec), r.level ≤ 3 →
    (r.machine k sev).level ≤ 3 ∧
    ((r.machine k sev).level = r.level ∨ (r.machine k sev).level + 1 = r.level ∨
      (r.level < (r.machine k sev).level ∧
        (r.machine k sev).level = [k.r1, k.r2, k.r3].countP (fun r => decide (r ≤ sev)))) ∧
    ((r.machine k sev).level < r.level → sev < k.threshold r.level - k.hysteresis ∧ max k.pDown 1 ≤ r.down + 1) ∧
    (r.level < (r.machine k sev).level → max k.pUp 1 ≤ r.up + 1)) ∧
  (∀ (s : State) (q : Quantity), s.start = .running → s.image.roles.weather = .station →
    (s.weather.quantities.get q).live = true →
    max s.image.staleLimit 1 ≤ min ((s.weather.quantities.get q).missing + 1) 255 →
    ∃ t, exec (.staleLimitReached q) s = .next t ∧
      t.weather.quantities.get q =
        { s.weather.quantities.get q with missing := min ((s.weather.quantities.get q).missing + 1) 255, live := false } ∧
      (∀ o, o ≠ q → t.weather.quantities.get o = s.weather.quantities.get o) ∧
      t.weather.gusts = (if q = .w then [] else s.weather.gusts) ∧
      (t.alert .weatherStale).latched = true ∧
      Counts [.station .fieldsMissing, .station .staleEntries, .occurrence .weatherStale] s t ∧
      t.weather = { s.weather with
        quantities := t.weather.quantities, gusts := t.weather.gusts
        stats := { s.weather.stats with missing := min (s.weather.stats.missing + 1) 65535 } } ∧
      t = { s with weather := t.weather, counters := t.counters, alerts := t.alerts }) ∧
  ∀ (s : State) (c : Condition), s.start = .running → s.image.roles.weather = .station →
    let r := s.weather.conditions.get c
    let k := s.image.conditions.get c
    let announced (t : State) : Prop :=
      t.counter (.station .levelChanges) = satInc (s.counter (.station .levelChanges)) ∧
      (∀ o, o ≠ c → t.weather.conditions.get o = s.weather.conditions.get o) ∧
      t.weather = { s.weather with conditions := t.weather.conditions } ∧
      (s.queues.localClass2.any (fun h => h.frame.kind == .condition) = false → s.grants .ordinaryOut = true →
        JoinsClass2 (localFrame s .condition 0 false 0 s.seqs.condition (t.ownLevels.toList.map levelByte)) s t ∧
        t.seqs = { s.seqs with condition := s.seqs.condition + 1 }) ∧
      t = { s with
        weather := t.weather, signs := t.signs, links := t.links, queues := t.queues, holdback := t.holdback
        store := t.store, seqs := t.seqs, counters := t.counters }
    (∀ sev, r.flag = .valid → r.severity = some sev → r.level < k.raw sev → max k.pUp 1 ≤ r.up + 1 → r.up < 255 →
      ∃ t, exec (.levelRise c) s = .next t ∧
        t.weather.conditions.get c = { r with level := k.raw sev, up := 0, down := 0 } ∧ announced t) ∧
    (∀ sev, r.flag = .valid → r.severity = some sev → k.raw sev ≤ r.level → 0 < r.level →
      sev < k.threshold r.level - k.hysteresis → max k.pDown 1 ≤ r.down + 1 → r.down < 255 →
      ∃ t, exec (.levelFall c) s = .next t ∧
        t.weather.conditions.get c = { r with level := r.level - 1, up := 0, down := 0 } ∧ announced t) ∧
    (r.flag = .held → max s.image.staleClear 1 ≤ r.held + 1 → r.held < 65535 →
      ∃ t, exec (.staleClear c) s = .next t ∧
        t.weather.conditions.get c = { r with level := 0, flag := .unknown, held := r.held + 1 } ∧ announced t)

/-- REPORT_TIMER_EXPIRY (R172): with a home and a cell granted, a WEATHER frame of the statistics, laid out as 13.2 gives,
joins the local WEATHER queue; with no home REPORT_NO_HOME is counted; R83: with no cell the oldest waiting report is shed and its cell takes the new
one, or the new one is skipped when none waits. The statistics are cleared in every case (R171). SAMPLE (R160): a body of 12
bytes becomes the pending sample, a pending one being superseded and counted; a body of any other length is counted in
SAMPLE_BAD and leaves the pending sample alone. That a refused cell counts as no report sent is read from R83 and R172
together (log 17). -/
def Obligations.ReportsAndSamples : Prop :=
  (∀ s : State, s.start = .running → s.image.roles.weather = .station → s.weather.report.due = true →
    let report : Frame := localFrame s .weather s.weatherHome false 0 s.seqs.weather s.reportPayload
    let ends (t : State) : Prop :=
      t.weather = { s.weather with stats := {}, report := { s.weather.report with due := false } } ∧
      t = { s with
        weather := t.weather, queues := t.queues, holdback := t.holdback, store := t.store, seqs := t.seqs
        counters := t.counters }
    let p := s.reportPayload
    let shown (k : Nat) (v : Option Int) : Prop := (natAt p k : Int) = v.getD 0 % 65536
    let stats := s.weather.stats
    let wind : Option Int := if s.weather.quantities.w.live then some ((s.weather.quantities.w.smoothed + 128) / 256) else none
    let absent (v : Option Int) (n : Nat) : Nat := if v.isNone then n else 0
    let level (r : ConditionRec) (k : Nat) : Prop := r.level ≤ 3 → (byteAt p k).toNat = 
        4 * (match r.flag with | .valid => 0 | .held => 1 | .unknown => 2) + r.level
    p.length = 28 ∧ shown 0 (some stats.samples) ∧ shown 2 stats.taMin ∧ shown 4 stats.taMax ∧ shown 6 stats.tsMin ∧
    shown 8 stats.tsMax ∧ shown 10 wind ∧ shown 12 stats.gustMax ∧ shown 14 stats.visMin ∧
    shown 16 (some stats.missing) ∧ shown 18 (some stats.suspect) ∧ shown 20 (some stats.clamped) ∧
    shown 22 (some stats.superseded) ∧ level s.weather.conditions.ice 24 ∧ level s.weather.conditions.wind 25 ∧
    level s.weather.conditions.fog 26 ∧
    (byteAt p 27).toNat = absent stats.taMin 1 + absent stats.tsMin 2 + absent wind 4 + absent stats.gustMax 8 +
      absent stats.visMin 16 ∧
    (s.weatherHome ≠ 0 → ∀ n st, s.store.request .weatherOut = some (n, st) →
      ∃ t, exec .reportTimerExpiry s = .next t ∧ t.store = st ∧
        t.queues = { s.queues with
          localWeather := s.queues.localWeather ++ [{ frame := report, cell := n, user := .weatherOut }] } ∧
        t.seqs = { s.seqs with weather := s.seqs.weather + 1 } ∧ Counts [.station .reportsSent] s t ∧ ends t) ∧
    (s.weatherHome ≠ 0 → s.grants .weatherOut = false →
      (∀ oldest rest, s.queues.localWeather = oldest :: rest →
        ∃ t, exec .reportTimerExpiry s = .next t ∧ t.store = s.store ∧
          t.queues = { s.queues with
            localWeather := rest ++ [{ frame := report, cell := oldest.cell, user := .weatherOut }] } ∧
          t.seqs = { s.seqs with weather := s.seqs.weather + 1 } ∧
          Counts [.refusals .weatherOut, .station .weatherShed] s t ∧ ends t) ∧
      (s.queues.localWeather = [] →
        ∃ t, exec .reportTimerExpiry s = .next t ∧ t.store = s.store ∧ t.queues = s.queues ∧ t.seqs = s.seqs ∧
          Counts [.refusals .weatherOut, .station .ordinarySkipped] s t ∧ ends t)) ∧
    (s.weatherHome = 0 →
      ∃ t, exec .reportTimerExpiry s = .next t ∧ t.store = s.store ∧ t.queues = s.queues ∧ t.seqs = s.seqs ∧
        Counts [.station .reportNoHome] s t ∧ ends t)) ∧
  ∀ (s : State) (chars : List LinkChar) (tag : Byte) (body : List Byte), Hears .weather chars (.message 0x21 tag body) s →
    (body.length = 12 →
      ∃ t, exec (.sample chars) s = .next t ∧ t.weather.pendingSample = some body ∧
        (if s.weather.pendingSample.isSome then
          Counts [.station .samplesSuperseded] s t ∧
          t.weather.stats = { s.weather.stats with superseded := min (s.weather.stats.superseded + 1) 65535 }
        else t.counters = s.counters ∧ t.weather.stats = s.weather.stats) ∧
        t.weather = { s.weather with pendingSample := t.weather.pendingSample, stats := t.weather.stats } ∧
        t = { s.hunting .weather with weather := t.weather, counters := t.counters }) ∧
    (body.length ≠ 12 →
      ∃ t, exec (.sample chars) s = .next t ∧ Counts [.station .sampleBad] s t ∧
        t = { s.hunting .weather with counters := t.counters })

/-! ## Record links (chapter 1) -/

/-- R13, R14, R15: the receiver of an active link. Hunting, it skips characters that are no start marker. A message whose CRC
agrees is handed to the job if its kind is accepted and is unknown otherwise; one that began while the ready output was low
is an overrun, and one that began while it was high is handed over though the output has gone low since; one that was in
reception as a service restart began is discarded without a count (R7). No shorter run of its characters brings an event, and
the end of each arms the gap timer with 8 line pulses. A framing error, a length above 240 and a CRC that does not agree make
it malformed. An inactive link hears nothing (R11). R12, R200: a character is a low start bit, its eight bits, least
significant first, and a stop bit, low in a framing error, and is read back from them; a message is sent as its characters
so. That the characters are operands of the rows is the model's choice (log 7). -/
def Obligations.LinkReceiver : Prop :=
  (∀ c : LinkChar,
    (charBits c).length = 10 ∧ (charBits c)[0]? = some false ∧ (∀ k, k < 8 → (charBits c)[k + 1]? = some (c.value.getLsbD k)) ∧
      (charBits c)[9]? = some (!c.framing) ∧ readChar (charBits c) = some c) ∧
  (∀ m : Message,
    let checked := [m.kind, m.tag, BitVec.ofNat 8 m.body.length] ++ m.body
    m.bits = ([0x7E] ++ checked ++ wordBytes (crc16 checked)).flatMap (fun b => charBits { value := b })) ∧
  (∀ (s : State) (l : Link) (chars : List LinkChar), s.linkActive l = false → s.heard l chars = none) ∧
  ∀ (s : State) (l : Link) (kind tag : Byte) (body : List Byte), s.linkActive l = true → body.length ≤ 240 →
    let plain (bytes : List Byte) : List LinkChar := bytes.map (fun b => { value := b })
    let checked := [kind, tag, BitVec.ofNat 8 body.length] ++ body
    let whole := [0x7E] ++ checked ++ wordBytes (crc16 checked)
    let handed : LinkEvent := if s.acceptsKind l kind then .message kind tag body else .unknown
    (∀ (k : Nat), 1 ≤ k → k < whole.length →
      ((s.link l).rx = .receiving .handed ((whole.take k).drop 1) → Hears l (plain (whole.drop k)) handed s) ∧
      ((s.link l).rx = .receiving .overrun ((whole.take k).drop 1) → Hears l (plain (whole.drop k)) .overrun s) ∧
      ((s.link l).rx = .receiving .dropped ((whole.take k).drop 1) →
        s.hearQuietly ((plain (whole.drop k)).map (fun c => (l, c))) = some (s.hunting l))) ∧
    ((s.link l).rx = .hunting → ∀ noise : List LinkChar, (∀ c ∈ noise, c.value ≠ 0x7E) →
      Hears l (noise ++ plain whole) (if s.readyOut l then handed else .overrun) s ∧
      (∀ k, 1 ≤ k → k < whole.length →
        ∃ u, s.hearQuietly ((noise ++ plain (whole.take k)).map (fun c => (l, c))) = some u ∧
          u = s.modLink l (fun r => { r with
            rx := .receiving (if s.readyOut l then .handed else .overrun) ((whole.take k).drop 1), gap := Timer.arm 8 }) ∧
        ∀ v, Hears l (noise ++ plain (whole.take k) ++ [{ value := v, framing := true }]) .malformed s) ∧
      (∀ c, c ≠ crc16 checked → Hears l (noise ++ plain ([0x7E] ++ checked ++ wordBytes c)) .malformed s) ∧
      (∀ n : Byte, 240 < n.toNat → Hears l (noise ++ plain [0x7E, kind, tag, n]) .malformed s))

/-- LINK_MESSAGE_MALFORMED and LINK_GAP_TIMEOUT (R14), LINK_MESSAGE_UNKNOWN (R13), LINK_OVERRUN (R15): the message is
counted once in its link's counter, handed to no job, and the receiver hunts. A message that a service restart found in
reception ends at the gap without a count (R7). -/
def Obligations.LinkMessagesDiscarded : Prop :=
  ∀ (s : State) (l : Link),
    let left (k : LinkCounter) (t : State) : Prop :=
      Counts [.link l k] s t ∧
        t = { s with
          counters := t.counters, links := s.links.set l { s.link l with rx := .hunting, gap := Timer.stopped } }
    (∀ chars, Hears l chars .malformed s →
      ∃ t, exec (.linkMessageMalformed l chars) s = .next t ∧ left .malformed t) ∧
    (∀ chars, Hears l chars .unknown s → ∃ t, exec (.linkMessageUnknown l chars) s = .next t ∧ left .unknown t) ∧
    (∀ chars, Hears l chars .overrun s → ∃ t, exec (.linkOverrun l chars) s = .next t ∧ left .overrun t) ∧
    ∀ fate bytes, (s.link l).rx = .receiving fate bytes → (s.link l).gap.due = true →
      (s.linkActive l = true → fate ≠ .dropped → ∃ t, exec (.linkGapTimeout l) s = .next t ∧ left .malformed t) ∧
      (s.linkActive l = false ∨ fate = .dropped → exec (.linkGapTimeout l) s = .next (s.hunting l))

/-- LINK_READY_IN_HIGH (R16): a ready input that goes high starts the oldest queued message of an active link whose transmitter
is free; one that goes high over an empty queue starts nothing. That the row has an operand, false for a fall, which starts
nothing, is the model's choice (log 8). LINK_MESSAGE_SENT (R16, R79, R144, R184, R188): the message leaves the queue, a cell
that it held is freed, a sign whose SHOW it was is AWAITING with its retry timer armed, and the next message starts when the
link is active and its ready input high. -/
def Obligations.OutputQueuesAreServed : Prop :=
  (∀ (s : State) (l : Link),
     let pins (high : Bool) : Pins := { s.pins with ready := s.pins.ready.set l high }
     exec (.linkReadyInHigh l false) s = .next { s with pins := pins false } ∧
     ((s.link l).queue = [] → exec (.linkReadyInHigh l true) s = .next { s with pins := pins true }) ∧
     ((s.link l).queue ≠ [] → (s.link l).sending = false → s.linkActive l = true →
       exec (.linkReadyInHigh l true) s = .next { s with
         pins := pins true, links := s.links.set l { s.link l with sending := true } })) ∧
  ∀ (s : State) (l : Link) (m : Message) (rest : List Message),
    (s.link l).sending = true → (s.link l).queue = m :: rest →
    let links := s.links.set l { s.link l with
      queue := rest, sending := !rest.isEmpty && s.linkActive l && s.pins.ready.get l }
    (∀ u n, m.holder = .cell u n →
      exec (.linkMessageSent l) s = .next { s with links := links, store := s.store.release u n }) ∧
    ((m.holder = .notice ∨ m.holder = .outcome ∨ m.holder = .nobody) →
      exec (.linkMessageSent l) s = .next { s with links := links }) ∧
    (∀ i, m.holder = .sign i →
      ∃ t, exec (.linkMessageSent l) s = .next t ∧
        t.sign i = { s.sign i with
          handover := .awaiting
          retry := Timer.arm (if (s.sign i).fault then s.image.faultRepeat else s.image.showTimeout)
          retryOnSample := (s.sign i).fault } ∧
        (∀ j, j ≠ i → t.sign j = s.sign j) ∧ t = { s with links := links, signs := t.signs })

/-! ## Toll (chapter 9) -/

/-- RECORD (R143 to R145): a record of 16 to 200 bytes whose tag is not held takes a JOURNAL cell and makes an entry, WAITING
with attempt count 0, with a sequence that no held entry has: the counter's value, unless that is held. One of a wrong length
draws REJECTED(LENGTH), and one that finds 96 entries held, or no cell, REJECTED(FULL), each as a notice, which is dropped and
counted where the notice store is full; one whose tag is held draws no message and makes no entry. -/
def Obligations.RecordIsTakenOrRefused : Prop :=
  ∀ (s : State) (chars : List LinkChar) (tag : Byte) (body : List Byte), Hears .toll chars (.message 0x01 tag body) s →
    let fits : Prop := 16 ≤ body.length ∧ body.length ≤ 200
    let fresh : Prop := ∀ e ∈ s.journal.entries, e.readerTag ≠ readerTag body
    let rejected (reason : Byte) (cs : List Counter) : Prop :=
      ∃ t, exec (.record chars) s = .next t ∧
        (s.noticesHeld < 16 →
          Queued .toll { kind := 0x02, body := tagBytes (readerTag body) ++ [reason], holder := .notice } (s.hunting .toll)
            t ∧ Counts cs s t) ∧
        (16 ≤ s.noticesHeld → t.links = (s.hunting .toll).links ∧ Counts (.station .noticesDropped :: cs) s t) ∧
        t = { s with links := t.links, counters := t.counters }
    (∀ n st, fits → fresh → s.journal.entries.length < 96 → s.store.request .journal = some (n, st) →
      ∃ t, exec (.record chars) s = .next t ∧
        (∃ q, (∀ e ∈ s.journal.entries, e.seq ≠ q) ∧
          ((∀ e ∈ s.journal.entries, e.seq ≠ s.journal.seq) → q = s.journal.seq) ∧
          t.journal = { s.journal with
            seq := q + 1
            entries := s.journal.entries ++
              [{ seq := q, readerTag := readerTag body, record := body, state := .waiting, attempts := 0
                 parkTurn := false, backoff := Timer.stopped, cell := n }] }) ∧
        t.store = st ∧ Counts [.station .recordsTaken] s t ∧
        t = { s.hunting .toll with journal := t.journal, store := t.store, counters := t.counters }) ∧
    (¬ fits → rejected 1 [.station .recordsRejected]) ∧
    (fits → ¬ fresh → ∃ t, exec (.record chars) s = .next t ∧ Counts [.station .tagsRepeated] s t ∧
      t = { s.hunting .toll with counters := t.counters }) ∧
    (fits → fresh → 96 ≤ s.journal.entries.length → rejected 2 [.station .recordsFull]) ∧
    (fits → fresh → s.journal.entries.length < 96 → s.grants .journal = false →
      rejected 2 [.refusals .journal, .station .recordsFull])

/-- SEND_PASS (R146, R147): with fewer than 4 entries in flight, a home and a registration that succeeds, the candidate is
sent: its entry is IN_FLIGHT with its attempt count raised, a PENDING return list entry with its key is held, and a TOLL
frame to the home with its record waits in the local TOLL queue, sent out of its JOURNAL cell. BACKOFF_TIMER_EXPIRY (R149)
and PARK_TIMER_EXPIRY (R147): a backoff ends for its entry alone; at a park timer's expiry a park turn becomes due for the
oldest PARKED entry, unless one is due. -/
def Obligations.SendPassAndJournalTimers : Prop :=
  (∀ (s : State) (e : JournalEntry), s.start = .running → s.image.roles.toll = .reader →
    (s.journal.entries.map (·.seq)).Nodup →
    s.journal.entries.countP (fun x => x.state == .inFlight) < 4 → s.tollHome ≠ 0 → s.journal.candidate = some e →
    canRegister .toll e.seq (BitVec.ofNat 8 e.attempts) s.returns = true →
    ∃ t, exec .sendPass s = .next t ∧
      { e with
        state := .inFlight, attempts := min (e.attempts + 1) 65535
        parkTurn := decide (s.journal.due = some e.seq) } ∈ t.journal.entries ∧
      ({ kind := .toll, seq := e.seq, tag := BitVec.ofNat 8 e.attempts, phase := .pending, deadline := Timer.stopped }
        : ReturnEntry) ∈ t.returns ∧
      ({ frame := localFrame s .toll s.tollHome false (BitVec.ofNat 8 e.attempts) e.seq e.record
         cell := e.cell, user := .journal } : Held) ∈ t.queues.localToll ∧
      t.journal.due ≠ some e.seq ∧ t.store = s.store ∧
      t = { s with
        journal := t.journal, returns := t.returns, queues := t.queues, holdback := t.holdback, counters := t.counters }) ∧
  ∀ s : State, s.start = .running →
    (∀ q, (∃ e ∈ s.journal.entries, e.seq = q ∧ e.backoff.due = true) →
      exec (.backoffTimerExpiry q) s = .next { s with
        journal := { s.journal with
          entries := s.journal.entries.map (fun e =>
            if e.seq = q then { e with backoff := { e.backoff with due := false } } else e) } }) ∧
    (s.journal.park.due = true →
      exec .parkTimerExpiry s = .next { s with
        journal := { s.journal with
          park := { s.journal.park with due := false }
          due := if s.journal.due.isSome then s.journal.due else
            (s.journal.entries.find? (fun e => e.state == .parked)).map (·.seq) } })

/-- R148 to R150: what the outcome of an attempt makes of its IN_FLIGHT entry: confirmed and removed with its cell freed and
a DELIVERED notice, PARKED, or WAITING again, after a backoff of 2^min(n, 6) service pulses where the attempt was refused or
not taken. -/
def Obligations.OutcomesMoveTheEntry : Prop :=
  ∀ (s : State) (e : JournalEntry) (o : FrameOutcome), (s.journal.entries.map (·.seq)).Nodup →
    e ∈ s.journal.entries → e.state = .inFlight →
    let t := s.journalOutcome e.seq o
    let others := s.journal.entries.filter (fun x => x.seq != e.seq)
    let parks := e.parkTurn = true ∨ max s.image.retryLimit 1 ≤ e.attempts
    let confirms : List Counter :=
      .station .confirmed :: (if o = .partly then [.station .partialSeen] else []) ++
        (if s.noticesHeld < 16 then [] else [.station .noticesDropped])
    (∀ x, x ∈ t.journal.entries → x ∈ others ∨ x.seq = e.seq) ∧ (∀ x ∈ others, x ∈ t.journal.entries) ∧
    ((o = .taken ∨ o = .partly) →
      t.journal = { s.journal with entries := others } ∧ t.store = s.store.release .journal e.cell ∧
      (s.noticesHeld < 16 → Queued .toll { kind := 0x03, body := tagBytes e.readerTag, holder := .notice } s t) ∧
      (16 ≤ s.noticesHeld → t.links = s.links) ∧ Counts confirms s t ∧
      t = { s with journal := t.journal, store := t.store, links := t.links, counters := t.counters }) ∧
    (o ≠ .taken → o ≠ .partly → parks →
      { e with state := .parked, parkTurn := false, backoff := Timer.stopped } ∈ t.journal.entries ∧
      (t.alert .journalParked).latched = true ∧ Counts [.station .parkings, .occurrence .journalParked] s t ∧
      t = { s with journal := t.journal, alerts := t.alerts, counters := t.counters }) ∧
    ((o = .refused ∨ o = .untaken) → ¬ parks →
      { e with state := .waiting, parkTurn := false, backoff := Timer.arm (2 ^ min e.attempts 6) } ∈ t.journal.entries ∧
      Counts [.station .backoffs] s t ∧ t = { s with journal := t.journal, counters := t.counters }) ∧
    ((o = .damaged ∨ o = .lost) → ¬ parks →
      { e with state := .waiting, parkTurn := false, backoff := Timer.stopped } ∈ t.journal.entries ∧
      Counts [.station .resends] s t ∧ t = { s with journal := t.journal, counters := t.counters })

/-- RETURN_DEADLINE_EXPIRY (R72, R73) resolves an AWAITING entry LOST, and a stripped TOLL or SIGN frame with its key resolves
it by the frame's marks, damaged before all (R71): the entry is removed and its owner is given the outcome, or in RE_READING
it turns HELD and keeps its place. A stripped frame whose entry is not AWAITING is a LATE_RETURN and resolves nothing
(R72). -/
def Obligations.ReturnsAreResolved : Prop :=
  (∀ (s : State) (e : ReturnEntry), (s.returns.map (fun e => (e.kind, e.seq, e.tag))).Nodup →
    e ∈ s.returns → e.phase = .awaiting →
    let others := s.returns.filter (fun x => !(x.kind == e.kind && x.seq == e.seq && x.tag == e.tag))
    let holds (o : FrameOutcome) (t : State) : Prop :=
      t.returns = others ++ [{ e with phase := .held o, deadline := Timer.stopped }]
    let outcome (code : Byte) : Message := { kind := 0x15, tag := e.tag, body := [code], holder := .outcome }
    (e.deadline.due = true →
      (s.start = .reReading →
        ∃ t, exec (.returnDeadlineExpiry e.kind e.seq e.tag) s = .next t ∧ holds .lost t ∧
          Counts [.station .returnLost] s t ∧ t = { s with returns := t.returns, counters := t.counters }) ∧
      (s.start = .running →
        ∃ t, exec (.returnDeadlineExpiry e.kind e.seq e.tag) s = .next t ∧ t.returns = others ∧
          t.counter (.station .returnLost) = satInc (s.counter (.station .returnLost)) ∧
          (e.kind = .toll → ∀ x ∈ s.journal.entries, (s.journal.entries.map (·.seq)).Nodup → x.seq = e.seq →
            x.state = .inFlight → x.parkTurn = false → x.attempts < s.image.retryLimit →
            { x with state := .waiting, parkTurn := false, backoff := Timer.stopped } ∈ t.journal.entries ∧
            t = { s with returns := t.returns, journal := t.journal, counters := t.counters }) ∧
          (e.kind = .sign → s.outcomesHeld < 16 → Queued .sign (outcome 6) s t ∧ Counts [.station .returnLost] s t ∧
            t = { s with returns := t.returns, links := t.links, counters := t.counters }) ∧
          (e.kind = .sign → 16 ≤ s.outcomesHeld →
            Counts [.station .returnLost, .station .outcomesDropped] s t ∧
            t = { s with returns := t.returns, counters := t.counters }))) ∧
    ∀ f : Frame, f.seq = e.seq → f.tag = e.tag →
      let t := s.lookUpReturn e.kind f
      let o : FrameOutcome × Byte :=
        if f.damaged then (.damaged, 5)
        else if f.taken then (if f.refused then (.partly, 2) else (.taken, 1))
        else if f.refused then (.refused, 3) else (.untaken, 4)
      (s.start = .reReading → holds o.1 t ∧ t = { s with returns := t.returns }) ∧
      (s.start ≠ .reReading → e.kind = .toll → t = State.journalOutcome e.seq o.1 { s with returns := others }) ∧
      (s.start ≠ .reReading → e.kind = .sign → s.outcomesHeld < 16 →
        Queued .sign (outcome o.2) s t ∧ t = { s with returns := others, links := t.links })) ∧
  ∀ (s : State) (k : ReturnKind) (f : Frame),
    (∀ e ∈ s.returns, e.kind = k → e.seq = f.seq → e.tag = f.tag → e.phase ≠ .awaiting) →
    Counts [.station .lateReturn] s (s.lookUpReturn k f) ∧
      s.lookUpReturn k f = { s with counters := (s.lookUpReturn k f).counters }

/-- R154, R157: a record offered to the collector that finds a RECEIVE cell is marked taken; an accepted one leaves a
COLLECTED message in the cell at the tail of the TOLL link's queue, and a duplicate frees the cell and queues nothing. One
that finds no cell is refused and leaves the source table alone, as is one that is not addressed directly or has a wrong
length. R155, R156: the tag decision, row by row, with the entry that it leaves; since its entry was EMPTY, a source's reader
tag that has been decided before is never accepted again without the unverified flag. -/
def Obligations.CollectorTakesRecords : Prop :=
  (∀ (e : Source) (t : BitVec 32),
    let H := e.highest.toNat
    let d := H - t.toNat
    let mark (w : BitVec 32) (k : Nat) : Bool := decide (1 ≤ k) && w.getLsbD (k - 1)
    let verdict : TagDecision := if e.state = .fresh then .acceptUnverified else .accept
    let accepts (x : TagDecision × Source) (v : TagDecision) (highest : BitVec 32) (marked : Nat → Bool) : Prop :=
      x.1 = v ∧ x.2.highest = highest ∧ (∀ k, 1 ≤ k → k ≤ 32 → mark x.2.window k = marked k) ∧
        x.2.accepts = (if e.state = .fresh then e.accepts + 1 else e.accepts) ∧
        x.2.state = (if e.state = .fresh ∧ 32 ≤ e.accepts + 1 then .settled else e.state)
    (e.state = .empty →
      e.decideTag t = (.acceptUnverified, { state := .fresh, highest := t, window := 0, accepts := 1 })) ∧
    (e.state ≠ .empty →
      (H < t.toNat →
        let by_ := t.toNat - H
        accepts (e.decideTag t) verdict t (fun k => k == by_ || (decide (by_ < k) && mark e.window (k - by_)))) ∧
      (t = e.highest → e.decideTag t = (.duplicate, e)) ∧
      (t.toNat < H → d ≤ 32 → mark e.window d = true → e.decideTag t = (.duplicate, e)) ∧
      (t.toNat < H → d ≤ 32 → mark e.window d = false →
        accepts (e.decideTag t) verdict e.highest (fun k => k == d || mark e.window k)) ∧
      (t.toNat < H → 32 < d → accepts (e.decideTag t) .acceptUnverified e.highest (mark e.window)))) ∧
  (∀ (tags : List (BitVec 32)) (t : BitVec 32), t ∈ tags →
    ((tags.foldl (fun (e : Source) x => (e.decideTag x).2) {}).decideTag t).1 ≠ .accept) ∧
  (∀ (s : State) (h : Held),
    h.frame.group = true ∨ h.frame.dest ≠ s.image.address ∨ h.frame.payload.length < 16 ∨ 200 < h.frame.payload.length →
    (s.tollCopy h).1 = false ∧ Counts [.station .tollBad] s (s.tollCopy h).2 ∧
      (s.tollCopy h).2 = { s with counters := (s.tollCopy h).2.counters }) ∧
  ∀ (s : State) (h : Held), h.frame.group = false → h.frame.dest = s.image.address → 16 ≤ h.frame.payload.length →
    h.frame.payload.length ≤ 200 →
    let d := ((s.source h.frame.source).decideTag (readerTag h.frame.payload)).1
    let message (flags : Byte) (n : Nat) : Message :=
      { kind := 0x04
        body := [h.frame.source.setWidth 8] ++ h.frame.payload ++ [flags, BitVec.ofNat 8 h.frame.hops, h.frame.tag]
        holder := .cell .receive n }
    let trailer (unverified : Bool) : Byte := if h.corrected then (if unverified then 3 else 2) else if unverified then 1 else 0
    (s.store.request .receive = none →
      (s.tollCopy h).1 = false ∧ (s.tollCopy h).2.collector = s.collector ∧
      Counts [.refusals .receive, .station .collectNoCell] s (s.tollCopy h).2) ∧
    ∀ n st, s.store.request .receive = some (n, st) →
      (s.tollCopy h).1 = true ∧
      (s.tollCopy h).2.source h.frame.source = ((s.source h.frame.source).decideTag (readerTag h.frame.payload)).2 ∧
      (∀ a, a ≠ h.frame.source → (s.tollCopy h).2.source a = s.source a) ∧
      (d = .accept → Queued .toll (message (trailer false) n) s (s.tollCopy h).2 ∧ (s.tollCopy h).2.store = st ∧
        Counts [.station .tollAccepted] s (s.tollCopy h).2) ∧
      (d = .acceptUnverified → Queued .toll (message (trailer true) n) s (s.tollCopy h).2 ∧ (s.tollCopy h).2.store = st ∧
        Counts [.station .tollAccepted, .station .tollUnverified] s (s.tollCopy h).2) ∧
      (d = .duplicate → (s.tollCopy h).2.links = s.links ∧ (s.tollCopy h).2.store = st.release .receive n ∧
        Counts [.station .tollDuplicate] s (s.tollCopy h).2) ∧
      (s.tollCopy h).2 = { s with
        collector := (s.tollCopy h).2.collector, links := (s.tollCopy h).2.links, store := (s.tollCopy h).2.store
        counters := (s.tollCopy h).2.counters }

/-! ## Signs (chapter 11) -/

/-- SHOWN (R177, R185): the number of the outstanding SHOW ends it and makes the sign OK; a SHOW not yet begun leaves the
queue, and one being sent is sent to its end and ends nothing; where the selection has meanwhile changed a new SHOW of it
starts at once. Another number, or an IDLE handover, is ignored and counted. SIGN_FAULT (R186): the sign is FAULT, the alert
latches, and the retry timer of an AWAITING sign is armed with the fault repeat; an IDLE sign is sent its selection. A body
of another length than 2, or that names no sign of this station, is counted in SIGN_MSG_BAD. -/
def Obligations.ShownAndSignFault : Prop :=
  ∀ (s : State) (i : Fin 4) (chars : List LinkChar) (tag num : Byte), i.val < s.image.roles.signCount →
    let r := s.sign i
    let new : Show :=
      { number := nextShow r.showCounter, selection := r.selection, body := r.showBody i (nextShow r.showCounter) }
    let showOf (sh : Show) : Message := { kind := 0x11, body := sh.body, holder := .sign i }
    let other (m : Message) : Bool := m.holder != .sign i
    let left : List Message := match (s.link .sign).sending, (s.link .sign).queue with
      | true, m :: rest => (if other m then m else { m with holder := .nobody }) :: rest.filter other
      | _, q => q.filter other
    (Hears .sign chars (.message 0x12 tag [BitVec.ofNat 8 i.val, num]) s →
      (∀ o, r.outstanding = some o → r.handover ≠ .idle → o.number = num →
        ∃ t, exec (.shown chars) s = .next t ∧
          (r.selection = o.selection →
            t.sign i = { r with
              handover := .idle, fault := false, outstanding := none, pendingFlag := false, timeouts := 0
              retry := Timer.stopped, retryOnSample := false } ∧ (t.link .sign).queue = left ∧
              t.counters = s.counters) ∧
          (r.selection ≠ o.selection →
            t.sign i = { r with
              handover := .sending, fault := false, pendingFlag := false, timeouts := 0
              showCounter := nextShow r.showCounter, outstanding := some new
              retry := Timer.stopped, retryOnSample := false } ∧ (t.link .sign).queue = left ++ [showOf new] ∧
              Counts [.station .showsSent] s t) ∧
          (∀ j, j ≠ i → t.sign j = s.sign j) ∧ (∀ l, l ≠ .sign → t.link l = s.link l) ∧
          t = { s with signs := t.signs, links := t.links, counters := t.counters }) ∧
      ((r.handover = .idle ∨ r.outstanding = none ∨ ∃ o, r.outstanding = some o ∧ o.number ≠ num) →
        ∃ t, exec (.shown chars) s = .next t ∧ Counts [.station .shownIgnored] s t ∧
          t = { s.hunting .sign with counters := t.counters })) ∧
    (Hears .sign chars (.message 0x13 tag [BitVec.ofNat 8 i.val, num]) s →
      ∃ t, exec (.signFault chars) s = .next t ∧ (t.alert .signFault).latched = true ∧
        (r.handover = .awaiting → t.sign i = { r with
          fault := true, retry := Timer.arm s.image.faultRepeat, retryOnSample := true }) ∧
        (r.handover = .sending → t.sign i = { r with fault := true }) ∧
        (r.handover = .idle →
          t.sign i = { r with
            fault := true, handover := .sending, showCounter := nextShow r.showCounter, outstanding := some new } ∧
          Queued .sign (showOf new) (s.hunting .sign) t) ∧
        (r.handover ≠ .idle → t.links = (s.hunting .sign).links) ∧
        Counts (if r.handover = .idle then
          [.station .signFaultsReported, .occurrence .signFault, .station .showsSent]
          else [.station .signFaultsReported, .occurrence .signFault]) s t ∧
        (∀ j, j ≠ i → t.sign j = s.sign j) ∧
        t = { s with signs := t.signs, links := t.links, counters := t.counters, alerts := t.alerts }) ∧
    ∀ body : List Byte, body.length ≠ 2 ∨ s.image.roles.signCount ≤ (byteAt body 0).toNat ∨ 4 ≤ (byteAt body 0).toNat →
      (Hears .sign chars (.message 0x12 tag body) s →
        ∃ t, exec (.shown chars) s = .next t ∧ Counts [.station .signMsgBad] s t ∧
          t = { s.hunting .sign with counters := t.counters }) ∧
      (Hears .sign chars (.message 0x13 tag body) s →
        ∃ t, exec (.signFault chars) s = .next t ∧ Counts [.station .signMsgBad] s t ∧
          t = { s.hunting .sign with counters := t.counters })

/-- COMMAND and HELD_COMMAND_RETRY (R187): a command whose registration can succeed and whose cell is granted is placed as a
SIGN frame with its return list entry, PENDING; a body of fewer than 2 or more than 233 bytes draws OUTCOME(BAD), which is
dropped where the outcome store is full (R188); a command that cannot be placed, for want of a registration or of a cell, is
held, and placed at a later try. That a command which finds another held is an overrun is the model's choice (log 19). -/
def Obligations.SignCommandsArePlaced : Prop :=
  ∀ (s : State) (tag : Byte) (body : List Byte),
    let registers := canRegister .sign s.seqs.sign tag s.returns
    let placed (t : State) : Prop :=
      JoinsClass2 (localFrame s .sign ((byteAt body 0).extractLsb' 0 6) ((byteAt body 0).getLsbD 6) tag s.seqs.sign
        (body.drop 1)) s t ∧
      t.seqs = { s.seqs with sign := s.seqs.sign + 1 } ∧
      t.returns = s.returns ++ [{ kind := .sign, seq := s.seqs.sign, tag := tag, phase := .pending }] ∧
      Counts [.station .commandsTaken] s t ∧
      t = { s with
        links := t.links, queues := t.queues, holdback := t.holdback, store := t.store, seqs := t.seqs
        returns := t.returns, signs := t.signs, counters := t.counters }
    (∀ chars, Hears .sign chars (.message 0x14 tag body) s →
      let holds (cs : List Counter) : Prop :=
        ∃ t, exec (.command chars) s = .next t ∧ t.signs = { s.signs with buffer := some (tag, body) } ∧ Counts cs s t ∧
          t = { s.hunting .sign with signs := t.signs, counters := t.counters }
      (2 ≤ body.length → body.length ≤ 233 → s.signs.buffer = none →
        (registers = true → s.grants .ordinaryOut = true →
          ∃ t, exec (.command chars) s = .next t ∧ t.signs = s.signs ∧ t.links = (s.hunting .sign).links ∧ placed t) ∧
        (registers = false → holds [.station .commandsHeld]) ∧
        (registers = true → s.grants .ordinaryOut = false →
          holds [.refusals .ordinaryOut, .station .commandsHeld])) ∧
      (2 ≤ body.length → body.length ≤ 233 → s.signs.buffer ≠ none →
        ∃ t, exec (.command chars) s = .next t ∧ Counts [.link .sign .overrun] s t ∧
          t = { s.hunting .sign with counters := t.counters }) ∧
      (body.length < 2 ∨ 233 < body.length →
        ∃ t, exec (.command chars) s = .next t ∧
          (s.outcomesHeld < 16 →
            Queued .sign { kind := 0x15, tag := tag, body := [7], holder := .outcome } (s.hunting .sign) t ∧
            Counts [.station .commandsBad] s t) ∧
          (16 ≤ s.outcomesHeld → t.links = (s.hunting .sign).links ∧
            Counts [.station .commandsBad, .station .outcomesDropped] s t) ∧
          t = { s with links := t.links, counters := t.counters })) ∧
    (s.start = .running → s.image.roles.sign = .centre → s.signs.buffer = some (tag, body) →
      (registers = true → s.grants .ordinaryOut = true →
        ∃ t, exec .heldCommandRetry s = .next t ∧ t.signs = { s.signs with buffer := none } ∧ t.links = s.links ∧
          placed t) ∧
      (registers = false → exec .heldCommandRetry s = .next s) ∧
      (registers = true → s.grants .ordinaryOut = false →
        ∃ t, exec .heldCommandRetry s = .next t ∧ Counts [.refusals .ordinaryOut] s t ∧
          t = { s with counters := t.counters }))

/-- SHOW_RETRY_EXPIRY (R186): the timeout run rises, the third timeout of an OK sign makes it FAULT and latches SIGN_FAULT,
and the outstanding SHOW is sent again, or a new one where the selection has changed. That a new one is counted in
SHOW_RESENDS and not in SHOWS_SENT is read from R184 and R186 together (log 18). -/
def Obligations.ShowRetrySendsAgain : Prop :=
  ∀ (s : State) (i : Fin 4) (o : Show), s.start = .running → s.image.roles.sign = .signs →
    i.val < s.image.roles.signCount → (s.sign i).handover = .awaiting → (s.sign i).retry.due = true →
    (s.sign i).outstanding = some o →
    let r := s.sign i
    let run := min (r.timeouts + 1) 3
    let fails := r.fault = false ∧ run = 3
    let new : Show :=
      { number := nextShow r.showCounter, selection := r.selection, body := r.showBody i (nextShow r.showCounter) }
    let sent : Show := if r.selection = o.selection then o else new
    ∃ t, exec (.showRetryExpiry i) s = .next t ∧
      t.sign i = { r with
        timeouts := run, fault := r.fault || decide (run = 3), handover := .sending, retry := Timer.stopped
        retryOnSample := false, outstanding := some sent
        pendingFlag := if r.selection = o.selection then r.pendingFlag else false
        showCounter := if r.selection = o.selection then r.showCounter else nextShow r.showCounter } ∧
      Queued .sign { kind := 0x11, body := sent.body, holder := .sign i } s t ∧
      (fails → (t.alert .signFault).latched = true ∧
        Counts [.station .showTimeouts, .station .showResends, .occurrence .signFault] s t) ∧
      (¬ fails → t.alerts = s.alerts ∧ Counts [.station .showTimeouts, .station .showResends] s t) ∧
      (∀ j, j ≠ i → t.sign j = s.sign j) ∧
      t = { s with signs := t.signs, links := t.links, counters := t.counters, alerts := t.alerts }

/-- CENTRE_LIFETIME_EXPIRY, TEST_DURATION_EXPIRY (R182) and INCIDENT_TIMER_EXPIRY (R180): the entry is removed, or INCIDENT
entries are made on the signs of the incident set or removed, and each sign concerned has its selection worked out again
(R184). R183: the entry of highest priority is selected, ties broken INCIDENT, CENTRE, CONDITIONS; TEST goes before all, and
with no entry the selection is BLANK. R184, 13.4: the body of a SHOW has the sign, the show number, the code of the selected
kind, and what is shown: a pattern, or the id and the text of the CENTRE entry. That an INCIDENT entry which a restart has kept (R189) competes only while the incident
delay and the incident pattern in force are not 0 is the model's reading (log 36). -/
def Obligations.SignEntriesAndSelection : Prop :=
  (∀ s : State, s.start = .running → s.image.roles.sign = .signs →
    let own (i : Fin 4) : Prop := i.val < s.image.roles.signCount
    let frame (t : State) : Prop := t = { s with signs := t.signs, links := t.links, counters := t.counters }
    let selects (i : Fin 4) (r : SignRec) (t : State) : Prop :=
      (t.sign i).centre = r.centre ∧ (t.sign i).incident = r.incident ∧ (t.sign i).test = r.test ∧
        (t.sign i).selection = r.select s.image s.signs.conditions
    (∀ i, own i → ∀ e, (s.sign i).centre = some e → e.lifetime.due = true →
      ∃ t, exec (.centreLifetimeExpiry i) s = .next t ∧ Reselects i { s.sign i with centre := none } s t ∧
        (∀ j, j ≠ i → t.sign j = s.sign j) ∧ t.signs = { s.signs with records := t.signs.records } ∧ frame t) ∧
    (∀ i, own i → ∀ e, (s.sign i).test = some e → e.duration.due = true →
      ∃ t, exec (.testDurationExpiry i) s = .next t ∧ Reselects i { s.sign i with test := none } s t ∧
        (∀ j, j ≠ i → t.sign j = s.sign j) ∧ t.signs = { s.signs with records := t.signs.records } ∧ frame t) ∧
    (s.signs.incidentTimer.due = true → s.signs.incident = .rising →
      ∃ t, exec .incidentTimerExpiry s = .next t ∧ t.signs.incident = .active ∧
        (∀ i, own i → s.image.incidentSet.getLsbD i.val = true →
          selects i { s.sign i with incident := true, test := none } t) ∧
        (∀ i, ¬ (own i ∧ s.image.incidentSet.getLsbD i.val = true) → t.sign i = s.sign i) ∧ frame t) ∧
    (s.signs.incidentTimer.due = true → s.signs.incident = .falling →
      ∃ t, exec .incidentTimerExpiry s = .next t ∧ t.signs.incident = .quiet ∧
        (∀ i, own i → selects i { s.sign i with incident := false } t) ∧ frame t)) ∧
  ∀ (img : Image) (conditions : Option Byte) (r : SignRec),
    (∀ t, r.test = some t → r.select img conditions = .test t.pattern) ∧
    (r.test = none → 1 ≤ img.incidentPriority → 1 ≤ img.conditionsPriority →
      (∀ c, r.centre = some c → 1 ≤ c.priority) →
      let incident := r.incident = true ∧ img.incidentDelay ≠ 0 ∧ img.incidentPattern ≠ 0
      (r.select img conditions = .blank ↔ ¬ incident ∧ r.centre = none ∧ conditions = none) ∧
      (r.select img conditions = .incident img.incidentPattern ↔ incident ∧
        (∀ c, r.centre = some c → c.priority ≤ img.incidentPriority) ∧
        (conditions.isSome → img.conditionsPriority ≤ img.incidentPriority)) ∧
      (∀ c, r.centre = some c → (r.select img conditions = .centre c.identity ↔
        (incident → img.incidentPriority < c.priority) ∧
        (conditions.isSome → img.conditionsPriority ≤ c.priority))) ∧
      (∀ p, conditions = some p → (r.select img conditions = .conditions p ↔
        (incident → img.incidentPriority < img.conditionsPriority) ∧
        (∀ c, r.centre = some c → c.priority < img.conditionsPriority)))) ∧
    ∀ (i : Fin 4) (n : Byte),
      let shows (bytes : List Byte) : Prop := r.showBody i n = [BitVec.ofNat 8 i.val, n] ++ bytes
      (r.selection = .blank → shows [0]) ∧
      (∀ m c, r.selection = .centre m → r.centre = some c →
        shows ([1, c.id.extractLsb' 8 8, c.id.extractLsb' 0 8] ++ c.text)) ∧
      (∀ p, r.selection = .conditions p → shows [2, p]) ∧ (∀ p, r.selection = .incident p → shows [3, p]) ∧
      (∀ p, r.selection = .test p → shows [4, p])

/-- R181, at the copy step of a station with signs: SET replaces the CENTRE entry of each sign it names, with a new identity,
and at priority 7 removes its TEST entry; CLEAR removes the CENTRE entries with its message id, and is counted where none has
it; TEST puts up its pattern, unless one of the signs has an INCIDENT entry or a CENTRE entry of priority 7. A payload that
is refused changes no sign. The model's choices: one whose command byte is none of the three is refused (log 50); an INCIDENT
entry that a restart has kept bars a TEST even where the image leaves it out of the selection (log 56). -/
def Obligations.SignFrames : Prop :=
  ∀ (s : State) (f : Frame), s.image.roles.sign = .signs →
    let p := f.payload
    let b (k : Nat) : Nat := (byteAt p k).toNat
    let named (i : Fin 4) : Prop := i.val < s.image.roles.signCount ∧ (byteAt p 1).getLsbD i.val = true
    let t := (s.signCopy f).2
    let refused (k : StationCounter) : Prop :=
      (s.signCopy f).1 = false ∧ Counts [.station k] s t ∧ t = { s with counters := t.counters }
    let wellFormed : Prop :=
      (b 0 = 1 ∧ 8 ≤ p.length ∧ p.length ≤ 207 ∧ 1 ≤ b 4 ∧ b 4 ≤ 7) ∨ (b 0 = 2 ∧ p.length = 4) ∨
        (b 0 = 3 ∧ p.length = 5 ∧ b 2 ≠ 0 ∧ 1 ≤ natAt p 3 ∧ natAt p 3 ≤ 600)
    let entries (i : Fin 4) (r : SignRec) : Prop :=
      (t.sign i).centre = r.centre ∧ (t.sign i).incident = r.incident ∧ (t.sign i).test = r.test ∧
        (t.sign i).selection = r.select s.image s.signs.conditions
    let taken : Prop := (s.signCopy f).1 = true ∧ (∀ i, ¬ named i → t.sign i = s.sign i) ∧
      t = { s with signs := t.signs, links := t.links, counters := t.counters }
    ((¬ wellFormed ∨ ∀ i, ¬ named i) → refused .signBad) ∧
    (wellFormed → (∃ i, named i) →
      (b 0 = 1 → taken ∧ ∀ i, named i →
        ∃ e : CentreEntry, e.id = wordAt p 2 ∧ e.priority = b 4 ∧ e.text = p.drop 7 ∧
          e.lifetime = (if natAt p 5 = 0 then Timer.stopped else Timer.arm (natAt p 5)) ∧
          s.signs.nextIdentity ≤ e.identity ∧ e.identity < t.signs.nextIdentity ∧
          (∀ j, named j → j ≠ i → (t.sign j).centre ≠ some e) ∧
          entries i { s.sign i with centre := some e, test := if b 4 = 7 then none else (s.sign i).test }) ∧
      (b 0 = 2 →
        let has (i : Fin 4) : Prop := ∃ e, (s.sign i).centre = some e ∧ e.id = wordAt p 2
        taken ∧
        ((∀ i, named i → ¬ has i) →
          t.counter (.station .clearNoMatch) = satInc (s.counter (.station .clearNoMatch))) ∧
        ((∃ i, named i ∧ has i) → t.counter (.station .clearNoMatch) = s.counter (.station .clearNoMatch)) ∧
        ∀ i, named i →
          (has i → entries i { s.sign i with centre := none }) ∧ (¬ has i → entries i (s.sign i))) ∧
      (b 0 = 3 →
        let bars (i : Fin 4) : Prop :=
          named i ∧ ((s.sign i).incident = true ∨ ∃ e, (s.sign i).centre = some e ∧ e.priority = 7)
        ((∃ i, bars i) → refused .testRefused) ∧
        ((∀ i, ¬ bars i) → taken ∧ ∀ i, named i → entries i { s.sign i with
          test := some { pattern := byteAt p 2, duration := Timer.arm (natAt p 3) } })))

/-! ## Line ports and the Fold Controller (chapters 2 and 3) -/

/-- R17 to R23, R25, R26: the receiver of a line port. HUNTING, it skips every symbol but FRAME_START, SPAN_START and a
line-code error. FRAME_START puts it in HEADER, the ninth header byte in BODY, with a corrected header counted, or back in
HUNTING with the frame discarded; FRAME_END after the payload and CRC that the length gives makes the frame complete.
SPAN_START puts it in SPAN, and the third data symbol makes the span word valid or invalid. What R22 lists ends a frame
early, and what is no data symbol a span word, and a FRAME_START or SPAN_START begins the next item. No shorter run of the
symbols brings an event, an unfinished item goes on with the symbols that come later, and a port without light, or in HELD
and READING, takes nothing (R26, R35). Reception touches nothing but the receive states and HEADER_CORRECTED. That the
symbols are operands of the rows, which have no effect where the symbols bring nothing, is the model's choice (log 7). -/
def Obligations.PortReceiver : Prop :=
  (∀ (s : State) (p : Port) (symbols : List RxSymbol), s.awake = false ∨ Pins.signal p s.pins = false →
    s.received p symbols = none ∧ s.receiveQuietly (symbols.map (fun x => (p, x))) = some s) ∧
  (∀ (s t : State) (symbols : List (Port × RxSymbol)), s.receiveQuietly symbols = some t → SameButReception s t) ∧
  (∀ (s : State) (p : Port) (symbols : List RxSymbol),
    (∀ e t, s.received p symbols = some (e, t) → SameButReception s t) ∧
    (∀ t rest, s.receiveQuietly (symbols.map (fun x => (p, x))) = some t → rest ≠ [] →
      s.received p (symbols ++ rest) = t.received p rest) ∧
    (s.received p symbols = none → ∀ c, Carries c p symbols → exec c s = .next s)) ∧
  ∀ (s : State) (p : Port), s.awake = true → Pins.signal p s.pins = true →
    let data (l : List Byte) : List RxSymbol := l.map (fun b => some (.data b))
    let leaves (x : RxState) (corrected : Bool) (t : State) : Prop :=
      Counts (if corrected then [.port p .headerCorrected] else []) s t ∧
        t = { s.modPort p (fun r => { r with rx := x }) with counters := t.counters }
    let goesOn (l : List RxSymbol) (x : RxState) (corrected : Bool) : Prop :=
      ∃ t, s.receiveQuietly (l.map (fun x => (p, x))) = some t ∧ leaves x corrected t
    let brings (l : List RxSymbol) (e : PortEvent) (x : RxState) (corrected : Bool) : Prop :=
      ∃ t, s.received p l = some (e, t) ∧ leaves x corrected t
    let cut : Prop :=
      brings [some .idle] (.discarded .delimiter) .hunting false ∧
      brings [some .frameStart] (.discarded .delimiter) (.header []) false ∧
      brings [some .spanStart] (.discarded .delimiter) (.span []) false ∧
      brings [none] (.discarded .lineCode) .hunting false ∧ brings [some .abort] (.discarded .aborted) .hunting false
    ((s.port p).rx = .hunting → ∀ noise : List RxSymbol,
      (∀ x ∈ noise, x ≠ none ∧ x ≠ some .frameStart ∧ x ≠ some .spanStart) →
      goesOn noise .hunting false ∧ brings (noise ++ [none]) .codeError .hunting false ∧
      (∀ content check,
        let word := wordBytes content ++ [check]
        (∀ k, k < 3 → goesOn (noise ++ [some .spanStart] ++ data (word.take k)) (.span (word.take k)) false) ∧
        (∀ sender st fault, readSpanWord content check = some (sender, st, fault) →
          brings (noise ++ [some .spanStart] ++ data word) (.spanWord sender st fault) .hunting false) ∧
        (readSpanWord content check = none →
          brings (noise ++ [some .spanStart] ++ data word) (.spanInvalid false) .hunting false)) ∧
      ∀ header,
        let bytes := headerBytes header
        let first := noise ++ [some .frameStart] ++ data bytes
        (∀ k, k < 9 → goesOn (noise ++ [some .frameStart] ++ data (bytes.take k)) (.header (bytes.take k)) false) ∧
        (readHeader header = .discarded → brings first (.discarded .headerDiscarded) .hunting false) ∧
        (∀ corrected, readHeader header = .invalid corrected →
          brings first (.discarded .headerInvalid) .hunting corrected) ∧
        ∀ f payload crc corrected, readHeader header = .passes f payload.length corrected →
          let rest := payload ++ if payload = [] then [] else crcBytes crc
          (∀ k, k ≤ rest.length →
            goesOn (first ++ data (rest.take k)) (.body f payload.length corrected (rest.take k)) corrected) ∧
          brings (first ++ data rest ++ [some .frameEnd])
            (.frame f corrected payload (if payload = [] then 0 else crc)) .hunting corrected) ∧
    (∀ bytes, (s.port p).rx = .header bytes → cut ∧ brings [some .frameEnd] (.discarded .delimiter) .hunting false) ∧
    (∀ f n corrected bytes, (s.port p).rx = .body f n corrected bytes →
      let whole := if n = 0 then 0 else n + 4
      cut ∧ (bytes.length < whole → brings [some .frameEnd] (.discarded .delimiter) .hunting false) ∧
        (whole ≤ bytes.length → ∀ b, brings [some (.data b)] (.discarded .delimiter) .hunting false)) ∧
    ∀ bytes, (s.port p).rx = .span bytes →
      (∀ x ∈ [Symbol.idle, .frameEnd, .abort], brings [some x] (.spanInvalid false) .hunting false) ∧
      brings [some .frameStart] (.spanInvalid false) (.header []) false ∧
      brings [some .spanStart] (.spanInvalid false) (.span []) false ∧ brings [none] (.spanInvalid true) .hunting false

/-- RX_FRAME_COMPLETE (R23, R24, R31, R43, R54 to R57, R62), from the state that the reception leaves (PortReceiver), in RUNNING,
RE_READING and TRANSPARENT: a frame that a port in DOWN, SETTLING or ISOLATED receives is not accepted; one that a port in
JOINING receives makes it UP, and is then as one received in UP. In UP it takes a cell of its direction's transit user and,
unless it is stripped, joins the transit queue of its class with its hop count raised; with no cell it is dropped. In
TRANSPARENT that is all (R6). Elsewhere the source of another station's frame is seen (R93, R95), whatever its fold count,
and a frame that is not at fold count 1 and addressed here then goes on as it is; CopyStep says the rest of one that is. A
frame of this station at fold count 0 is an ADDRESS_CLASH and is forwarded; one at fold count 2 is stripped, and a TOLL or
SIGN frame so stripped is looked up in the return list (R58, R71). R20: a corrected header is noted with the frame and raises
the score by 1; PortReceiver says where it is counted. That the score changes before the link state decides is the model's
choice (log 10). -/
def Obligations.ReceivedFrames : Prop :=
  ∀ (was s : State) (p : Port) (header : List RxSymbol) (body last : List Byte) (f : Frame) (payload : List Byte)
    (crc : BitVec 32) (corrected : Bool),
    was.received p (frameSymbols header body last) = some (.frame f corrected payload crc, s) →
    (s.port p).Quiet s.image →
    let serves : Prop := s.start ≠ .transparent
    let d := Port.arrival p
    let bad : Bool := !payload.isEmpty && crc32 payload != crc
    let heard : List Counter :=
      (if bad then [.port p (if f.damaged then .damagedPassing else .payloadDamaged)] else []) ++ [.port p .framesIn]
    let scored : State := s.modPort p (fun r => { r with
      score := if bad && !f.damaged then min (r.score + 6) 255 else if corrected then min (r.score + 1) 255 else r.score - 1 })
    let inside (n : Nat) : Held :=
      { frame := { f with
          payload := payload, crc := if payload.isEmpty then 0 else crc, damaged := f.damaged || bad
          hops := min (f.hops + 1) 255 }
        cell := n, user := Dir.user d, arrival := d, corrected := corrected }
    let row : Instr := .rxFrameComplete p header body last
    ((s.port p).link ≠ .up → (s.port p).link ≠ .joining →
      ∃ t, exec row was = .next t ∧ Counts (heard ++ [.port p .notAccepted]) s t ∧ t = { scored with counters := t.counters }) ∧
    ((s.port p).link = .joining →
      ∃ t u, exec row was = .next t ∧ exec row (was.modPort p (fun r => { r with link := .up, lineWait := none })) = .next u ∧
        (∀ c, t.counter c = if c = .port p .joins then satInc (u.counter c) else u.counter c) ∧
        t = { u with counters := t.counters }) ∧
    ((s.port p).link = .up → s.store.request (Dir.user d) = none →
      ∃ t, exec row was = .next t ∧ (t.alert .cellShortage).latched = true ∧
        Counts (heard ++ [.refusals (Dir.user d), .station .transitDrop, .occurrence .cellShortage]) s t ∧
        t = { scored with counters := t.counters, alerts := t.alerts }) ∧
    (∀ n st, s.store.request (Dir.user d) = some (n, st) → (s.port p).link = .up → serves → f.source = s.image.address →
      f.fold = 2 → f.kind ≠ .toll → f.kind ≠ .sign →
      ∃ t, exec row was = .next t ∧ Counts (heard ++ [.station .stripped]) s t ∧
        t = { scored with store := st.release (Dir.user d) n, counters := t.counters }) ∧
    (∀ n st k, s.store.request (Dir.user d) = some (n, st) → (s.port p).link = .up → serves → f.source = s.image.address →
      f.fold = 2 → (f.kind = .toll ∧ k = ReturnKind.toll) ∨ (f.kind = .sign ∧ k = ReturnKind.sign) →
      ∃ u, Counts (heard ++ [.station .stripped]) s u ∧
        u = { scored with store := st.release (Dir.user d) n, counters := u.counters } ∧
        exec row was = .next (u.lookUpReturn k (inside n).frame)) ∧
    ∀ n st, s.store.request (Dir.user d) = some (n, st) → (s.port p).link = .up → (s.port (Dir.side d)).link = .up →
      let joins (t : State) : Prop := t.queues = s.queues.joinTransit d (inside n) ∧ t.store = st
      (¬ serves →
        ∃ t, exec row was = .next t ∧ joins t ∧ Counts heard s t ∧
          t = { scored with queues := t.queues, holdback := t.holdback, store := t.store, counters := t.counters }) ∧
      (serves → f.source = s.image.address → f.fold = 0 →
        ∃ t, exec row was = .next t ∧ joins t ∧ (t.alert .addressClash).latched = true ∧
          (∀ a, a ≠ .addressClash → t.alert a = s.alert a) ∧
          Counts (heard ++ [.station .addressClash, .occurrence .addressClash]) s t ∧
          t = { scored with
            queues := t.queues, holdback := t.holdback, store := t.store, counters := t.counters, alerts := t.alerts }) ∧
      (serves → f.source = s.image.address → f.fold = 1 →
        ∃ t, exec row was = .next t ∧ joins t ∧ Counts heard s t ∧
          t = { scored with queues := t.queues, holdback := t.holdback, store := t.store, counters := t.counters }) ∧
      (serves → f.source ≠ s.image.address → f.fold ≠ 1 ∨ s.addressedHere f = false →
        ∃ t, exec row was = .next t ∧ joins t ∧ SourceSeen f heard s t ∧
          t = { scored with
            queues := t.queues, holdback := t.holdback, store := t.store, counters := t.counters, peers := t.peers
            alerts := t.alerts, phone := t.phone, signs := t.signs, links := t.links, journal := t.journal })

/-- RX_FRAME_DISCARDED (R20 to R22), SPAN_WORD_INVALID (R22, R25), LINE_CODE_ERROR (R19), SIGNAL_LOSS and SIGNAL_RISE (R26),
from the state that the reception leaves (PortReceiver), at a port whose error state they leave ACTIVE: what is counted, and
the score, which rises by 6 but for an ABORT and for a loss of signal in HUNTING (R31). A loss of signal ends the item in
progress and leaves the receiver HUNTING. That a line-code error in a span word counts in both counters, that a loss of
signal there is an invalid span word, and that the symbols before it are received first, or none of them where one brings a
row of its own, is the model's reading (logs 20, 33 and 7). R45: at an ISOLATED port an invalid span word arms a running
recovery timer again, and its score stays (R31). -/
def Obligations.ReceptionErrorsScore : Prop :=
  (∀ (was s : State) (p : Port) (before : List RxSymbol) (x : RxSymbol) (e : PortEvent),
    was.received p (before ++ [x]) = some (e, s) →
    ((s.port p).Quiet s.image →
      let gives (c : Instr) (rise : Nat) (cs : List PortCounter) : Prop :=
        ∃ t, exec c was = .next t ∧ Counts (cs.map (Counter.port p)) s t ∧
          t = { s.modPort p (fun r => { r with score := if rise = 0 then r.score else min (r.score + rise) 255 }) with
            counters := t.counters }
      (e = .discarded .headerDiscarded → gives (.rxFrameDiscarded p before x) 6 [.headerDiscarded]) ∧
      (e = .discarded .headerInvalid → gives (.rxFrameDiscarded p before x) 6 [.headerInvalid]) ∧
      (e = .discarded .delimiter → gives (.rxFrameDiscarded p before x) 6 [.delimiterErrors]) ∧
      (e = .discarded .lineCode → gives (.rxFrameDiscarded p before x) 6 [.lineCodeErrors]) ∧
      (e = .discarded .aborted → gives (.rxFrameDiscarded p before x) 0 [.abortedIn]) ∧
      ((s.port p).link ≠ .isolated →
        (e = .spanInvalid false → gives (.spanWordInvalid p (before ++ [x])) 6 [.spanErrors]) ∧
        (e = .spanInvalid true → gives (.spanWordInvalid p (before ++ [x])) 6 [.lineCodeErrors, .spanErrors])) ∧
      (e = .codeError → before = [] → gives (.lineCodeError p) 6 [.lineCodeErrors])) ∧
    ∀ codeError, e = .spanInvalid codeError → (s.port p).link = .isolated → (s.port p).errorState = .isolated →
      ∃ t, exec (.spanWordInvalid p (before ++ [x])) was = .next t ∧
        Counts ((if codeError then [.port p .lineCodeErrors] else []) ++ [.port p .spanErrors]) s t ∧
        t = { s.modPort p (fun r => { r with
            recovery := if r.recovery.running then Timer.arm s.image.recovery else r.recovery }) with
          counters := t.counters }) ∧
  ∀ (was : State) (p : Port) (header body : List RxSymbol),
    let symbols := (header ++ body).map (fun x => (p, x))
    (Pins.signal p was.pins = true →
      (was.awake = false →
        exec (.signalLoss p header body) was = .next { was with pins := Pins.setSignal p false was.pins }) ∧
      (was.receiveQuietly symbols = none → exec (.signalLoss p header body) was = exec (.signalLoss p [] []) was) ∧
      ∀ s, was.awake = true → was.receiveQuietly symbols = some s → (s.port p).Quiet s.image →
        let gives (rise : Nat) (cs : List PortCounter) : Prop :=
          ∃ t, exec (.signalLoss p header body) was = .next t ∧ Counts (cs.map (Counter.port p)) s t ∧
            t = { s.modPort p (fun r => { r with
                rx := .hunting, score := if rise = 0 then r.score else min (r.score + rise) 255 }) with
              pins := Pins.setSignal p false s.pins, counters := t.counters }
        ((s.port p).rx = .hunting → gives 0 [.signalLoss]) ∧
        (∀ bytes, (s.port p).rx = .header bytes → gives 6 [.signalLoss, .delimiterErrors]) ∧
        (∀ f n corrected bytes, (s.port p).rx = .body f n corrected bytes → gives 6 [.signalLoss, .delimiterErrors]) ∧
        ∀ bytes, (s.port p).rx = .span bytes → (s.port p).link ≠ .isolated → gives 6 [.signalLoss, .spanErrors]) ∧
    (Pins.signal p was.pins = false → exec (.signalRise p) was = .next
      { was.modPort p (fun r => { r with rx := .hunting }) with pins := Pins.setSignal p true was.pins })

/-- SPAN_WORD_RECEIVED (R25, R36, R38 to R40), from the state that the reception leaves (PortReceiver): a valid span word is
counted, sets the neighbour address and, unless it is self-heard, which none is in TRANSPARENT, the hearing flag and the loss
timer, and moves the link state by its rule; a side with no frame to leave folds without any further effect. -/
def Obligations.SpanWordRules : Prop :=
  ∀ (was s : State) (p : Port) (content : List RxSymbol) (check : Byte) (sender : Addr) (st : SpanState) (fault : Bool),
    was.received p (spanSymbols content check) = some (.spanWord sender st fault, s) →
    let r := s.port p
    let heard : PortRec :=
      { r with neighbour := sender, loss := Timer.arm s.image.lossLimit, hearing := true }
    let down (cause : FoldCause) : PortRec :=
      { heard with link := .down, cause := cause, neighbour := 0, holdOff := Timer.stopped }
    let becomes (r' : PortRec) (cs : List PortCounter) : Prop :=
      ∃ t, exec (.spanWordReceived p content check) was = .next t ∧
        Counts ((PortCounter.spanWordsIn :: cs).map (Counter.port p)) s t ∧
        t = { s.modPort p (fun _ => r') with counters := t.counters }
    let folds (cause : FoldCause) : Prop :=
      ∃ t, exec (.spanWordReceived p content check) was = .next t ∧ (t.alert .foldChange).latched = true ∧
        Counts [.port p .spanWordsIn, .port p .linkDowns, .occurrence .foldChange] s t ∧
        t = { s.modPort p (fun _ => down cause) with counters := t.counters, alerts := t.alerts }
    (s.start ≠ .transparent → sender = s.image.address → becomes { r with neighbour := sender } [.selfHeard]) ∧
    (s.start = .transparent ∨ sender ≠ s.image.address →
      (r.link = .down → fault = true → becomes heard []) ∧
      (r.link = .down → fault = false →
        becomes { heard with link := .settling, holdOff := Timer.arm s.image.joinHoldOff } [] ∧
        ({ heard with link := .settling } : PortRec).spanNow = (.notReady, false)) ∧
      (r.link = .settling → fault = true → becomes (down .farEndFault) []) ∧
      (r.link = .settling → fault = false → becomes heard []) ∧
      (r.link = .joining → fault = true → becomes (down .farEndFault) []) ∧
      (r.link = .joining → fault = false → st = .notReady → becomes heard []) ∧
      (r.link = .joining → fault = false → st ≠ .notReady →
        becomes { heard with link := .up, lineWait := none } [.joins]) ∧
      (r.link = .up → fault = false → st ≠ .notReady → becomes heard []) ∧
      (r.link = .up → fault = true → s.NothingLeaves p → folds .farEndFault) ∧
      (r.link = .up → fault = false → st = .notReady → s.NothingLeaves p → folds .neighbourNotReady) ∧
      (r.link = .isolated →
        becomes { heard with recovery := if r.hearing then r.recovery else Timer.arm s.image.recovery } []))

/-- LOSS_TIMER_EXPIRY (R41), HOLD_OFF_EXPIRY (R42), RECOVERY_TIMER_EXPIRY (R45), and the isolation of a port whose score
reaches the isolation threshold (R32, R33, R44), here by a LINE_CODE_ERROR, with the fold that it is at a port that was UP
(R46). R31, R32: what a score change that stays below the isolation threshold does to the error state, by a LINE_CODE_ERROR and
by a complete frame at a port that does not accept it: ACTIVE becomes WARNING from the warning threshold on, with PORT_WARNING
latched and counted, WARNING becomes ACTIVE below its own threshold, and every other state stays. -/
def Obligations.FoldTimersAndIsolation : Prop :=
  (∀ (s : State) (p : Port), s.awake = true →
    let r := s.port p
    let deaf : PortRec := { r with loss := { r.loss with due := false }, hearing := false }
    let down : PortRec := { deaf with link := .down, cause := .loss, neighbour := 0, holdOff := Timer.stopped }
    (r.loss.due = true →
      ((r.link = .settling ∨ r.link = .joining) →
        exec (.lossTimerExpiry p) s = .next (s.modPort p (fun _ => down))) ∧
      (r.link = .down → exec (.lossTimerExpiry p) s = .next (s.modPort p (fun _ => deaf))) ∧
      (r.link = .isolated →
        exec (.lossTimerExpiry p) s = .next (s.modPort p (fun _ => { deaf with recovery := Timer.stopped }))) ∧
      (r.link = .up → s.NothingLeaves p →
        ∃ t, exec (.lossTimerExpiry p) s = .next t ∧ (t.alert .foldChange).latched = true ∧
          Counts [.port p .linkDowns, .occurrence .foldChange] s t ∧
          t = { s.modPort p (fun _ => down) with counters := t.counters, alerts := t.alerts })) ∧
    (r.link = .settling → r.holdOff.due = true →
      exec (.holdOffExpiry p) s = .next
        (s.modPort p (fun _ => { r with link := .joining, holdOff := { r.holdOff with due := false } }))) ∧
    (r.link = .isolated → r.recovery.due = true →
      exec (.recoveryTimerExpiry p) s = .next (s.modPort p (fun _ =>
        { r with
          score := 0, errorState := .active, recovery := { r.recovery with due := false }
          link := .settling, holdOff := Timer.arm s.image.joinHoldOff })))) ∧
  ∀ (was s : State) (p : Port) (symbols : List RxSymbol) (e : PortEvent), was.received p symbols = some (e, s) →
    let r := s.port p
    (e = .codeError → symbols = [none] → r.errorState ≠ .isolated → s.image.isolation ≤ min (r.score + 6) 255 →
      let alone : PortRec :=
        { r with
          score := min (r.score + 6) 255, errorState := .isolated, link := .isolated, cause := .isolation
          holdOff := Timer.stopped
          recovery := if r.hearing then Timer.arm s.image.recovery else Timer.stopped }
      (r.link ≠ .up →
        ∃ t, exec (.lineCodeError p) was = .next t ∧ (t.alert .portIsolated).latched = true ∧
          Counts [.port p .lineCodeErrors, .occurrence .portIsolated] s t ∧
          t = { s.modPort p (fun _ => alone) with counters := t.counters, alerts := t.alerts }) ∧
      (r.link = .up → s.NothingLeaves p →
        ∃ t, exec (.lineCodeError p) was = .next t ∧ (t.alert .portIsolated).latched = true ∧
          (t.alert .foldChange).latched = true ∧
          Counts [.port p .lineCodeErrors, .occurrence .portIsolated, .port p .linkDowns, .occurrence .foldChange] s t ∧
          t = { s.modPort p (fun _ => alone) with counters := t.counters, alerts := t.alerts })) ∧
    (r.errorState ≠ .isolated →
      let scores (score : Nat) (c : Instr) (cs : List Counter) : Prop :=
        score < s.image.isolation →
        let warns : Prop := r.errorState = .active ∧ s.image.warning ≤ score
        ∃ t, exec c was = .next t ∧
          (warns → Counts (cs ++ [.occurrence .portWarning]) s t ∧
            t.alert .portWarning =
              { latched := true
                time := if (s.alert .portWarning).latched then (s.alert .portWarning).time else s.timebase } ∧
            ∀ a, a ≠ .portWarning → t.alert a = s.alert a) ∧
          (¬ warns → Counts cs s t ∧ t.alerts = s.alerts) ∧
          t = { s.modPort p (fun r => { r with
              score := score
              errorState := if warns then .warning
                else if r.errorState = .warning ∧ score < s.image.warningClear then .active else r.errorState }) with
            counters := t.counters, alerts := t.alerts }
      (e = .codeError → symbols = [none] →
        scores (min (r.score + 6) 255) (.lineCodeError p) [.port p .lineCodeErrors]) ∧
      ∀ header body last f payload crc corrected, symbols = frameSymbols header body last →
        e = .frame f corrected payload crc → r.link ≠ .up → r.link ≠ .joining →
        let bad : Prop := payload ≠ [] ∧ crc32 payload ≠ crc
        scores (if bad ∧ f.damaged = false then min (r.score + 6) 255
            else if corrected then min (r.score + 1) 255 else r.score - 1)
          (.rxFrameComplete p header body last)
          ((if bad then [.port p (if f.damaged then .damagedPassing else .payloadDamaged)] else []) ++
            [.port p .framesIn, .port p .notAccepted]))

/-- SPAN_WORD_SENT (R27), FRAME_SENT (R28, R68) and FOLDED_LINE_TIME_END (R50): the transmitter is IDLE again, or begins the
span word it owes; a sent frame is counted and its cell freed, but for a JOURNAL cell; the arbiter's wait is over. That an
ABORT is shown until the transmit state next changes is the model's reading (log 52). -/
def Obligations.TransmitterIsFreed : Prop :=
  ∀ (s : State) (p : Port), s.awake = true →
    let r := s.port p
    (∀ content, r.tx = .span content →
      exec (.spanWordSent p) s = .next
        (s.modPort p (fun _ => { r with tx := .idle, aborts := false, owesSpan := false }))) ∧
    (∀ h, r.tx = .frame h →
      ∃ t, exec (.frameSent p) s = .next t ∧
        t.port p = (if r.owesSpan then
            { r with
              tx := .span (spanContent s.image.address r.spanNow.1 r.spanNow.2)
              aborts := false, spanSent := r.spanNow.1, faultSent := r.spanNow.2 }
          else { r with tx := .idle, aborts := false }) ∧
        t.store = (if h.user = .journal then s.store else s.store.release h.user h.cell) ∧
        Counts [.port p .framesOut] s t ∧
        t = { s.modPort p (fun _ => t.port p) with store := t.store, counters := t.counters }) ∧
    exec (.foldedLineTimeEnd p) s = .next (s.modPort p (fun _ => { r with lineWait := none }))

/-! ## Carriage and insertion fairness (chapters 4 and 5) -/

/-- ARBITER_CHOICE (R65, R67): the RISE arbiter serves transit URGENT, local URGENT, transit ordinary and last the local
ordinary queues in the order TOLL, CLASS2, WEATHER; the FALL arbiter serves URGENT, then ordinary. The oldest frame of the
first queue that is not empty goes to the transmitter. A local ordinary frame is launched only while no entry of the
holdback list has its quota used up (R66, R90), and its return list entry then awaits its frame (R70). That an ABORT is shown
until the transmit state next changes is the model's reading (log 52). -/
def Obligations.ArbiterServesInOrder : Prop :=
  ∀ (s : State) (h : Held) (q : List Held), s.awake = true →
    let local_ : Prop := s.start ≠ .reReading
    let wire : PortRec := { s.east with tx := .frame h, aborts := false }
    (s.east.link = .up → s.east.tx = .idle → s.east.owesSpan = false →
      (s.queues.riseUrgent = h :: q →
        exec (.arbiterChoice .rise) s = .next { s with queues := { s.queues with riseUrgent := q }, east := wire }) ∧
      (s.queues.riseUrgent = [] → local_ → s.queues.localUrgent = h :: q → h.frame.kind.urgent = true →
        ∃ t, exec (.arbiterChoice .rise) s = .next t ∧ Counts [.station .inserted] s t ∧
          t = { s with queues := { s.queues with localUrgent := q }, east := wire, counters := t.counters }) ∧
      (s.queues.riseUrgent = [] → (s.queues.localUrgent = [] ∨ ¬ local_) → s.queues.riseOrdinary = h :: q →
        ∃ t, exec (.arbiterChoice .rise) s = .next t ∧
          t = { s with queues := { s.queues with riseOrdinary := q }, east := wire, holdback := t.holdback }) ∧
      (s.queues.riseUrgent = [] → s.queues.localUrgent = [] → s.queues.riseOrdinary = [] → local_ →
        (∀ e ∈ s.holdback.entries, s.holdback.inserted < e.quota) →
        (s.queues.localToll = h :: q ∨ (s.queues.localToll = [] ∧ s.queues.localClass2 = h :: q) ∨
          (s.queues.localToll = [] ∧ s.queues.localClass2 = [] ∧ s.queues.localWeather = h :: q)) →
        ∃ t, exec (.arbiterChoice .rise) s = .next t ∧
          t.queues = (if s.queues.localToll ≠ [] then { s.queues with localToll := q }
            else if s.queues.localClass2 ≠ [] then { s.queues with localClass2 := q }
            else { s.queues with localWeather := q }) ∧
          t.holdback = { s.holdback with
            inserted := min (s.holdback.inserted + 1) 255, starved := false, repeating := Timer.stopped
            starvation := Timer.stopped } ∧
          t.returns = s.returns.map (fun e =>
            if e.phase = .pending ∧ e.seq = h.frame.seq ∧ e.tag = h.frame.tag ∧
                ((e.kind = .toll ∧ h.frame.kind = .toll) ∨ (e.kind = .sign ∧ h.frame.kind = .sign)) then
              { e with phase := .awaiting, deadline := Timer.arm s.image.returnTimeout }
            else e) ∧
          Counts [.station .inserted] s t ∧
          t = { s with
            queues := t.queues, east := wire, holdback := t.holdback, returns := t.returns, counters := t.counters }) ∧
      (s.queues.riseUrgent = [] → s.queues.localUrgent = [] → s.queues.riseOrdinary = [] →
        (∃ e ∈ s.holdback.entries, e.quota ≤ s.holdback.inserted) → exec (.arbiterChoice .rise) s = .next s)) ∧
    (s.west.link = .up → s.west.tx = .idle → s.west.owesSpan = false →
      let wire : PortRec := { s.west with tx := .frame h, aborts := false }
      (s.queues.fallUrgent = h :: q →
        exec (.arbiterChoice .fall) s = .next { s with queues := { s.queues with fallUrgent := q }, west := wire }) ∧
      (s.queues.fallUrgent = [] → s.queues.fallOrdinary = h :: q →
        exec (.arbiterChoice .fall) s = .next { s with queues := { s.queues with fallOrdinary := q }, west := wire }))

/-- R47, here by a LOSS_TIMER_EXPIRY at a port in UP: the frame on the wire is abandoned and counted in CUT with its cell freed,
and the port sends ABORT in its place and then an owed span word or IDLE (R30); every frame of the side's transit queues is
turned back one after another, urgent before ordinary, oldest first, after which the queues are empty. That the frame on the
wire is taken first is the model's choice (log 12), and that the ABORT is shown until the transmit state next changes its
reading (log 52). -/
def Obligations.FoldOnset : Prop :=
  ∀ (s : State) (p : Port), s.awake = true → (s.port p).link = .up → (s.port p).loss.due = true →
    let r := s.port p
    let down : PortRec :=
      { r with
        loss := { r.loss with due := false }, hearing := false, link := .down, cause := .loss, neighbour := 0
        holdOff := Timer.stopped }
    let waiting : List Held := match p with
      | .east => s.queues.riseUrgent ++ s.queues.riseOrdinary
      | .west => s.queues.fallUrgent ++ s.queues.fallOrdinary
    ∃ u t, exec (.lossTimerExpiry p) s = .next t ∧
      t = waiting.foldl (fun v h => v.turnBack (Port.departure p) h) u ∧
      t.queues.transit (Port.departure p) = [] ∧ t.port p = u.port p ∧
      Counts ([.port p .linkDowns, .occurrence .foldChange] ++ if r.tx.held = [] then [] else [.port p .cut]) s u ∧
      (u.alert .foldChange).latched = true ∧
      u.queues = (match p with
        | .east => { s.queues with riseUrgent := [], riseOrdinary := [] }
        | .west => { s.queues with fallUrgent := [], fallOrdinary := [] }) ∧
      (r.tx.held = [] → u.port p = down ∧ u.store = s.store) ∧
      (∀ h, r.tx = .frame h →
        u.port p = (if r.owesSpan then
            { down with
              tx := .span (s.image.address ++ (0 : BitVec 2) ++ BitVec.ofBool true ++ (0 : BitVec 7))
              aborts := true, spanSent := .notReady, faultSent := true }
          else { down with tx := .idle, aborts := true }) ∧
        (u.port p).line = .abort :: (if r.owesSpan then
            spanLine (s.image.address ++ (0 : BitVec 2) ++ BitVec.ofBool true ++ (0 : BitVec 7))
          else [.idle]) ∧
        u.store = (if h.user = .journal then s.store else s.store.release h.user h.cell)) ∧
      u = { s.modPort p (fun _ => u.port p) with
        queues := u.queues, holdback := u.holdback, store := u.store, counters := u.counters, alerts := u.alerts }

/-- R48 to R50, R79: a frame that is to leave by a folded side is turned back. Its fold count rises, its cell passes to the
other direction's transit user, and it is presented in that direction; a refused request frees the cell and drops the frame
as one that finds no cell (R54); at fold count 2 it is an orphan. A local TOLL frame of a head fold leaves its JOURNAL cell
and takes one of its own, or is dropped where none is granted (R68). ARBITER_CHOICE at a folded side launches the local frame,
be it URGENT, TOLL, CLASS2 or WEATHER, so, and then waits for the frame's line time. That the cell that passes counts as free when the request is decided is the model's choice (log 11). -/
def Obligations.FoldedSideTurnsFramesBack : Prop :=
  (∀ (st : Store) (old new : User) (n : Nat), old ≠ new →
    let count (u : User) : Nat := (st.users.get u).count - if u = old then 1 else 0
    let reserved := (allUsers.map (fun u => (st.users.get u).guarantee - count u)).sum
    let granted : Prop := count new < (st.users.get new).guarantee ∨
      (count new < (st.users.get new).maximum ∧ reserved < st.free.length + 1)
    (¬ granted → st.transfer old new n = none) ∧
    (granted → ∃ st', st.transfer old new n = some st' ∧ st' = { st with users := st'.users } ∧
      st'.users.get old = { st.users.get old with count := (st.users.get old).count - 1 } ∧
      st'.users.get new = { st.users.get new with
        count := (st.users.get new).count + 1
        peak := max (st.users.get new).peak ((st.users.get new).count + 1) } ∧
      ∀ u, u ≠ old → u ≠ new → st'.users.get u = st.users.get u)) ∧
  (∀ (s : State) (d : Dir) (h : Held), h.user ≠ .journal → h.user ≠ Dir.user (Dir.flip d) →
    let t := s.turnBack d h
    let freed : Store := s.store.release h.user h.cell
    (h.frame.fold = 2 → Counts [.station .orphans] s t ∧ t = { s with store := freed, counters := t.counters }) ∧
    (h.frame.fold < 2 → s.store.transfer h.user (Dir.user (Dir.flip d)) h.cell = none →
      (t.alert .cellShortage).latched = true ∧
      Counts [.station .turnedBack, .refusals (Dir.user (Dir.flip d)), .station .transitDrop, .occurrence .cellShortage] s
        t ∧
      t = { s with store := freed, counters := t.counters, alerts := t.alerts }) ∧
    (h.frame.fold < 2 → ∀ st, s.store.transfer h.user (Dir.user (Dir.flip d)) h.cell = some st →
      ∃ u, Counts [.station .turnedBack] s u ∧ u = { s with store := st, counters := u.counters } ∧
        t = u.present (Dir.flip d)
          { h with
            frame := { h.frame with fold := h.frame.fold + 1 }, user := Dir.user (Dir.flip d), arrival := Dir.flip d })) ∧
  ∀ (s : State) (h : Held) (q : List Held), s.start = .running → s.east.link ≠ .up → s.east.lineWait = none →
    s.west.link = .up → s.queues.riseUrgent = [] → h.frame.source = s.image.address → h.frame.fold = 0 →
    let turned (c : Nat) : Held :=
      { h with
        frame := { h.frame with fold := 1, hops := min (h.frame.hops + 1) 255 }, cell := c, user := .transitFall
        arrival := .fall }
    let east : PortRec := { s.east with
      lineWait := some (if h.frame.payload.length = 0 then 11 else h.frame.payload.length + 15) }
    let inserted : Holdback := { s.holdback with
      inserted := min (s.holdback.inserted + 1) 255, starved := false, repeating := Timer.stopped
      starvation := Timer.stopped }
    let launched : List ReturnEntry := s.returns.map (fun e =>
      if e.phase = .pending ∧ e.seq = h.frame.seq ∧ e.tag = h.frame.tag ∧
          ((e.kind = .toll ∧ h.frame.kind = .toll) ∨ (e.kind = .sign ∧ h.frame.kind = .sign)) then
        { e with phase := .awaiting, deadline := Timer.arm s.image.returnTimeout }
      else e)
    (s.queues.localUrgent = h :: q → h.frame.kind.urgent = true → h.user = .urgentOut →
      (∀ st, s.store.transfer .urgentOut .transitFall h.cell = some st →
        ∃ t, exec (.arbiterChoice .rise) s = .next t ∧ Counts [.station .inserted, .station .turnedBack] s t ∧
          t = { s with
            queues := { s.queues with localUrgent := q, fallUrgent := s.queues.fallUrgent ++ [turned h.cell] }
            east := east, store := st, counters := t.counters }) ∧
      (s.store.transfer .urgentOut .transitFall h.cell = none →
        ∃ t, exec (.arbiterChoice .rise) s = .next t ∧ (t.alert .cellShortage).latched = true ∧
          Counts [.station .inserted, .station .turnedBack, .refusals .transitFall, .station .transitDrop,
            .occurrence .cellShortage] s t ∧
          t = { s with
            queues := { s.queues with localUrgent := q }, east := east, store := s.store.release .urgentOut h.cell
            counters := t.counters, alerts := t.alerts })) ∧
    (s.queues.localUrgent = [] → s.queues.riseOrdinary = [] → s.queues.localToll = h :: q → h.frame.kind = .toll →
      h.user = .journal → (∀ e ∈ s.holdback.entries, s.holdback.inserted < e.quota) →
      (∀ n st, s.store.request .transitFall = some (n, st) →
        ∃ t, exec (.arbiterChoice .rise) s = .next t ∧ Counts [.station .inserted, .station .turnedBack] s t ∧
          t = { s with
            queues := { s.queues with localToll := q, fallOrdinary := s.queues.fallOrdinary ++ [turned n] }
            east := east, holdback := inserted, store := st, returns := launched, counters := t.counters }) ∧
      (s.store.request .transitFall = none →
        ∃ t, exec (.arbiterChoice .rise) s = .next t ∧ (t.alert .cellShortage).latched = true ∧
          Counts [.station .inserted, .station .turnedBack, .refusals .transitFall, .station .transitDrop,
            .occurrence .cellShortage] s t ∧
          t = { s with
            queues := { s.queues with localToll := q }, east := east, holdback := inserted, returns := launched
            counters := t.counters, alerts := t.alerts })) ∧
    (s.queues.localUrgent = [] → s.queues.riseOrdinary = [] → s.queues.localToll = [] →
      s.queues.localClass2 = h :: q ∨ (s.queues.localClass2 = [] ∧ s.queues.localWeather = h :: q) →
      h.frame.kind.urgent = false → h.user = .ordinaryOut ∨ h.user = .weatherOut →
      (∀ e ∈ s.holdback.entries, s.holdback.inserted < e.quota) →
      let left : Queues :=
        if s.queues.localClass2 ≠ [] then { s.queues with localClass2 := q } else { s.queues with localWeather := q }
      (∀ st, s.store.transfer h.user .transitFall h.cell = some st →
        ∃ t, exec (.arbiterChoice .rise) s = .next t ∧ Counts [.station .inserted, .station .turnedBack] s t ∧
          t = { s with
            queues := { left with fallOrdinary := s.queues.fallOrdinary ++ [turned h.cell] }
            east := east, holdback := inserted, store := st, returns := launched, counters := t.counters }) ∧
      (s.store.transfer h.user .transitFall h.cell = none →
        ∃ t, exec (.arbiterChoice .rise) s = .next t ∧ (t.alert .cellShortage).latched = true ∧
          Counts [.station .inserted, .station .turnedBack, .refusals .transitFall, .station .transitDrop,
            .occurrence .cellShortage] s t ∧
          t = { s with
            queues := left, east := east, holdback := inserted, store := s.store.release h.user h.cell
            returns := launched, counters := t.counters, alerts := t.alerts }))

/-- R59 to R61, R7: which frames are addressed here, which kinds the station takes in its roles, and what the copy step does
with a frame at fold count 1: a damaged one is counted and goes on; one of a kind that the station does not take gets the
refused mark where it is addressed directly, and goes on as it is elsewhere; any other is offered to its job, whose answer is
marked and counted. RX_FRAME_COMPLETE: a frame of another station at fold count 1 that is addressed here has its source seen
(R93, R95), takes the copy step and then goes on to its queue; ReceivedFrames says what becomes of every other. -/
def Obligations.CopyStep : Prop :=
  (∀ (s : State) (f : Frame),
    (s.addressedHere f = true ↔
      (f.group = false ∧ (f.dest = 0 ∨ f.dest = s.image.address)) ∨
      (f.group = true ∧ f.dest &&& s.image.groupMask = s.image.groupCode &&& s.image.groupMask)) ∧
    (∀ k ∈ [Kind.holdback, .presence, .condition], s.takesKind k = true) ∧
    (s.start = .reReading → ∀ k ∈ [Kind.voice, .call, .toll, .sign, .status, .weather], s.takesKind k = false) ∧
    (s.start = .running →
      (∀ k ∈ [Kind.voice, .call], (s.takesKind k = true ↔ s.image.roles.phone ≠ .none)) ∧
      (s.takesKind .toll = true ↔ s.image.roles.toll = .collector) ∧
      (s.takesKind .sign = true ↔ s.image.roles.sign = .signs) ∧ s.takesKind .status = true ∧
      (s.takesKind .weather = true ↔ s.image.roles.weather = .home))) ∧
  (∀ (s : State) (h : Held),
    let r := s.copyStep h
    let f := h.frame
    let job (b : Bool × State) : Prop :=
      r.1 = { h with frame := { f with taken := f.taken || b.1, refused := f.refused || !b.1 } } ∧
      Counts (if b.1 then [.station .copied] else [.station .refusedHere]) b.2 r.2 ∧
      r.2 = { b.2 with counters := r.2.counters }
    (f.damaged = true → r.1 = h ∧ Counts [.station .notCopiedDamaged] s r.2 ∧ r.2 = { s with counters := r.2.counters }) ∧
    (f.damaged = false → s.takesKind f.kind = false →
      (f.group = false → f.dest = s.image.address → f.dest ≠ 0 →
        r.1 = { h with frame := { f with refused := true } } ∧ Counts [.station .refusedHere] s r.2 ∧
          r.2 = { s with counters := r.2.counters }) ∧
      (f.group = true ∨ f.dest = 0 → r = (h, s))) ∧
    (f.damaged = false → s.takesKind f.kind = true →
      (f.kind = .call → job (if s.image.roles.phone = .switchboard then s.switchCallCopy f else s.lineCallCopy f)) ∧
      (f.kind = .voice → job (if s.image.roles.phone = .switchboard then s.switchVoiceCopy f else s.lineVoiceCopy f)) ∧
      (f.kind = .holdback → job (s.holdbackCopy f)) ∧ (f.kind = .toll → job (s.tollCopy h)) ∧
      (f.kind = .sign → job (s.signCopy f)) ∧ (f.kind = .presence → job (s.presenceCopy f)) ∧
      (f.kind = .status → job (s.statusCopy f)) ∧ (f.kind = .weather → job (s.weatherCopy f)) ∧
      (f.kind = .condition → (s.start ≠ .running ∨ s.image.roles.weather ≠ .home) → job (s.conditionCopy f)) ∧
      (f.kind = .condition → s.start = .running → s.image.roles.weather = .home →
        let peer := s.conditionCopy f
        let home := peer.2.homeConditionCopy f
        r.1 = { h with frame := { f with
          taken := f.taken || peer.1 || home.1, refused := f.refused || !peer.1 || !home.1 } } ∧
        Counts ((if peer.1 || home.1 then [.station .copied] else []) ++
          if peer.1 && home.1 then [] else [.station .refusedHere]) home.2 r.2 ∧
        r.2 = { home.2 with counters := r.2.counters }))) ∧
  ∀ (was s : State) (p : Port) (header : List RxSymbol) (body last : List Byte) (f : Frame) (payload : List Byte)
    (crc : BitVec 32) (n : Nat) (st : Store),
    was.start = .running ∨ was.start = .reReading →
    was.received p (frameSymbols header body last) = some (.frame f false payload crc, s) →
    (s.port p).Quiet s.image → (s.port p).link = .up →
    (s.port (Dir.side (Port.arrival p))).link = .up → s.store.request (Dir.user (Port.arrival p)) = some (n, st) →
    f.source ≠ s.image.address → f.fold = 1 → s.addressedHere f = true → (payload = [] ∨ crc32 payload = crc) →
    ∃ u, SourceSeen f [.port p .framesIn] s u ∧
      u = { s.modPort p (fun r => { r with score := r.score - 1 }) with
        store := st, counters := u.counters, peers := u.peers, alerts := u.alerts, phone := u.phone, signs := u.signs
        links := u.links, journal := u.journal } ∧
      let r := u.copyStep
        { frame := { f with payload := payload, crc := if payload = [] then 0 else crc, hops := min (f.hops + 1) 255 }
          cell := n, user := Dir.user (Port.arrival p), arrival := Port.arrival p }
      exec (.rxFrameComplete p header body last) was =
        .next (r.2.modQueues (fun q => q.joinTransit (Port.arrival p) r.1))

/-- What the copy step's jobs make of PRESENCE, CONDITION and WEATHER frames. R96: a good PRESENCE payload, which is one whose
every value lies in its set, replaces the entry's presence and levels parts; any other is refused and counted. R97: a good
CONDITION payload replaces the levels; a change at a zone station of a sign station recomputes the zone levels (R179). R173,
R174: a HOME takes a report of 28 bytes, as it arrived, and a good CONDITION, into a RECEIVE cell as a REPORT or LEVELS
message. That the spare bits of the level bytes of LEVELS are sent as 0 (R200) is the
model's reading (log 48). -/
def Obligations.PresenceConditionAndWeatherCopies : Prop :=
  (∀ (part : PresencePart) (levels : PerCondition Level), part.roles.signCount ≤ 4 → part.offHook ≤ 4 →
    part.occupancy ≤ 96 → part.alerts ≤ 10 → (∀ c, (levels.get c).level ≤ 3) →
    readPresence (presencePayload part levels) = some (part, levels)) ∧
  (∀ p : List Byte,
    let b (k : Nat) : Nat := (byteAt p k).toNat
    let flagBad (k : Nat) : Prop := b k / 4 % 4 = 3
    (readPresence p = none ↔
      p.length ≠ 12 ∨ 4 < b 9 ∨ 96 < b 10 ∨ 10 < b 11 ∨ b 0 / 64 = 3 ∨ b 0 / 16 % 4 = 3 ∨ b 0 / 4 % 4 = 3 ∨ b 0 % 4 = 3 ∨
        4 < b 1 % 8 ∨ 4 < b 2 / 32 ∨ b 2 / 8 % 4 = 3 ∨ 4 < b 4 / 32 ∨ b 4 / 8 % 4 = 3 ∨ flagBad 6 ∨ flagBad 7 ∨ flagBad 8) ∧
    (readCondition p = none ↔ p.length ≠ 3 ∨ flagBad 0 ∨ flagBad 1 ∨ flagBad 2)) ∧
  ∀ (s : State) (f : Frame),
    let peerIs (t : State) (e : Peer) : Prop :=
      t.peer f.source = e ∧ (∀ a, a ≠ f.source → t.peer a = s.peer a) ∧
      (s.start ≠ .reReading → s.image.roles.sign = .signs → f.source ∈ s.image.zoneStations →
        e.levels ≠ (s.peer f.source).levels →
        t.signs.zone = ⟨t.zoneLevel .ice, t.zoneLevel .wind, t.zoneLevel .fog⟩ ∧
        t.signs.conditions = conditionsEntry s.image t.signs.zone) ∧
      (s.start = .reReading ∨ s.image.roles.sign ≠ .signs ∨ f.source ∉ s.image.zoneStations ∨
        e.levels = (s.peer f.source).levels →
        t = { s with peers := { s.peers with entries := t.peers.entries } }) ∧
      t = { s with
        peers := { s.peers with entries := t.peers.entries }, signs := t.signs, links := t.links, counters := t.counters }
    let refused (r : Bool × State) (cs : List Counter) : Prop :=
      r.1 = false ∧ Counts cs s r.2 ∧ r.2 = { s with counters := r.2.counters }
    let queued (r : Bool × State) (kind : Byte) (bytes : List Byte) (k : StationCounter) : Prop :=
      ∀ n st, s.store.request .receive = some (n, st) →
        r.1 = true ∧ r.2.store = st ∧ Counts [.station k] s r.2 ∧
        Queued .weather
          { kind := kind, body := [f.source.setWidth 8] ++ wordBytes f.seq ++ bytes, holder := .cell .receive n } s r.2 ∧
        r.2 = { s with store := r.2.store, links := r.2.links, counters := r.2.counters }
    (∀ part levels, readPresence f.payload = some (part, levels) →
      (s.presenceCopy f).1 = true ∧
        peerIs (s.presenceCopy f).2 { s.peer f.source with presence := some part, levels := some levels }) ∧
    (readPresence f.payload = none → refused (s.presenceCopy f) [.station .peerBadPayload]) ∧
    (∀ levels, readCondition f.payload = some levels →
      (s.conditionCopy f).1 = true ∧ peerIs (s.conditionCopy f).2 { s.peer f.source with levels := some levels } ∧
      queued (s.homeConditionCopy f) 0x23 (f.payload.map (fun b => b &&& 0x0F)) .levelsOut ∧
      (s.grants .receive = false → refused (s.homeConditionCopy f) [.refusals .receive, .station .homeNoCell])) ∧
    (readCondition f.payload = none → refused (s.conditionCopy f) [.station .peerBadPayload] ∧
      refused (s.homeConditionCopy f) [.station .conditionBad]) ∧
    (f.payload.length ≠ 28 → refused (s.weatherCopy f) [.station .weatherBad]) ∧
    (f.payload.length = 28 → queued (s.weatherCopy f) 0x22 f.payload .reportsOut ∧
      (s.grants .receive = false → refused (s.weatherCopy f) [.refusals .receive, .station .homeNoCell]))

/-- STARVATION_TIMER_EXPIRY and HOLDBACK_REPEAT_EXPIRY (R87): the flag is set and a HOLDBACK with the holdback quota as its
tag is placed, and another at each repeat; with no cell it is skipped. HOLDBACK_ENTRY_EXPIRY (R89) removes an entry,
HOLDBACK_PERIOD_EXPIRY (R90) sets the count of insertions to 0. R88: a HOLDBACK that is copied is taken; it sets the quota of
its originator's entry and arms it again with three holdback periods, adds an entry, or where four are held takes the place of
the one with the fewest pulses left, of equals the one armed earlier. R90: an insertion is allowed while every quota held is
above the count of insertions. The model's reading (log 39): a holdback period of 0 is read as 1 before it is taken three
times. -/
def Obligations.HoldbackTimersAndCopies : Prop :=
  (∀ s : State, s.start = .running →
    let sent (t : State) : Prop :=
      JoinsUrgent (localFrame s .holdback 0 false (BitVec.ofNat 8 s.image.holdbackQuota) s.seqs.holdback []) s t ∧
      t.seqs = { s.seqs with holdback := s.seqs.holdback + 1 }
    let skipped (t : State) : Prop :=
      t.queues = s.queues ∧ t.store = s.store ∧ t.seqs = s.seqs ∧ (t.alert .cellShortage).latched = true
    let skips : List Counter :=
      [.station .holdbackSkipped, .station .urgentNotSent, .refusals .urgentOut, .occurrence .cellShortage]
    let frame (t : State) : Prop := t = { s with
      holdback := t.holdback, queues := t.queues, store := t.store, seqs := t.seqs, counters := t.counters
      alerts := t.alerts }
    (s.holdback.starvation.due = true →
      ∃ t, exec .starvationTimerExpiry s = .next t ∧
        t.holdback = { s.holdback with
          starved := true, starvation := Timer.stopped, repeating := Timer.armRepeating s.image.holdbackPeriod } ∧
        (s.grants .urgentOut = true → sent t ∧ Counts [.station .starved, .station .holdbackSent] s t ∧
          t.alerts = s.alerts) ∧
        (s.grants .urgentOut = false → skipped t ∧ Counts (.station .starved :: skips) s t) ∧ frame t) ∧
    (s.holdback.repeating.due = true →
      ∃ t, exec .holdbackRepeatExpiry s = .next t ∧
        t.holdback = { s.holdback with repeating := { s.holdback.repeating with due := false } } ∧
        (s.grants .urgentOut = true → sent t ∧ Counts [.station .holdbackSent] s t ∧ t.alerts = s.alerts) ∧
        (s.grants .urgentOut = false → skipped t ∧ Counts skips s t) ∧ frame t) ∧
    (∀ a, (∃ e ∈ s.holdback.entries, e.originator = a ∧ e.expiry.due = true) →
      exec (.holdbackEntryExpiry a) s = .next { s with
        holdback := { s.holdback with entries := s.holdback.entries.filter (fun e => e.originator != a) } }) ∧
    (s.holdback.period.due = true →
      exec .holdbackPeriodExpiry s = .next { s with
        holdback := { s.holdback with inserted := 0, period := { s.holdback.period with due := false } } })) ∧
  ∀ (s : State) (f : Frame),
    let t := (s.holdbackCopy f).2
    let e : HoldbackEntry :=
      { originator := f.source, quota := max f.tag.toNat 1, expiry := Timer.arm (3 * max s.image.holdbackPeriod 1)
        armed := s.holdback.armings }
    let becomes (l : List HoldbackEntry) (cs : List Counter) : Prop :=
      t.holdback = { s.holdback with entries := l, armings := s.holdback.armings + 1 } ∧ Counts cs s t ∧
        t = { s with holdback := t.holdback, counters := t.counters }
    (s.holdbackCopy f).1 = true ∧
    ((∃ x ∈ s.holdback.entries, x.originator = f.source) →
      becomes (s.holdback.entries.map (fun x => if x.originator = f.source then e else x)) [.station .holdbackCopied]) ∧
    ((∀ x ∈ s.holdback.entries, x.originator ≠ f.source) → s.holdback.entries.length < 4 →
      becomes (s.holdback.entries ++ [e]) [.station .holdbackCopied]) ∧
    ((∀ x ∈ s.holdback.entries, x.originator ≠ f.source) → 4 ≤ s.holdback.entries.length →
      ∃ gone ∈ s.holdback.entries,
        (∀ x ∈ s.holdback.entries, gone.expiry.left < x.expiry.left ∨
          (gone.expiry.left = x.expiry.left ∧ gone.armed ≤ x.armed)) ∧
        becomes (s.holdback.entries.map (fun x => if x.originator = gone.originator then e else x))
          [.station .holdbackCopied, .station .holdbackReplaced]) ∧
    (s.holdback.allows = true ↔ ∀ x ∈ s.holdback.entries, s.holdback.inserted < x.quota)

/-! ## Peers and presence (chapter 6) -/

/-- PRESENCE_TIMER_EXPIRY (R94, R98): every entry ages by one expiry, a PRESENT one that reaches the peer loss limit is LOST
and counted; a PRESENCE frame of this moment is placed, or the one that waits is rebuilt, or it is skipped for want of a cell
(R82). R95: in RUNNING a loss is notified to the Phone Unit, whose requesting lines take the tone of the home choice that is
left (R109), and to the Sign Unit, whose zone levels no longer count the station (R97, R179); in RE_READING the notices wait
(R100). R99: what the 12 bytes of a PRESENCE payload hold (13.2), each from the state of the moment, with the lines off hook of
R119, the levels of R159 and the latched events of R197. R101: the home choice of a service is its primary home, but for an alternate home that is PRESENT while the primary is
not. -/
def Obligations.PresenceTimerAgesPeers : Prop :=
  (∀ s : State, s.start = .running ∨ s.start = .reReading → s.peers.timer.due = true →
      let limit := max s.image.peerLossLimit 1
      let falls (p : Peer) : Bool := p.state == .present && decide (limit ≤ min (p.age + 1) 255)
      let aged (p : Peer) : Peer :=
        match p.state with
        | .absent => p
        | .lost => { p with age := min (p.age + 1) 255 }
        | .present => { p with age := min (p.age + 1) 255, state := if falls p then .lost else .present }
      let losses := allStations.countP (fun a => falls (s.peer a))
      let waits := s.queues.localClass2.any (fun h => h.frame.kind == .presence)
      ∃ t, exec .presenceTimerExpiry s = .next t ∧ (∀ a, a ≠ 0 → t.peer a = aged (s.peer a)) ∧
        t.peers = { s.peers with timer := { s.peers.timer with due := false }, entries := t.peers.entries } ∧
        t.counter (.station .peersLost) = Nat.repeat satInc losses (s.counter (.station .peersLost)) ∧
        (waits = false → s.grants .ordinaryOut = true →
          JoinsClass2 (localFrame s .presence 0 false 0 s.seqs.presence t.presenceNow) s t ∧
          t.seqs = { s.seqs with presence := s.seqs.presence + 1 } ∧
          (losses = 0 → Counts [.station .presenceSent] s t)) ∧
        (waits = false → s.grants .ordinaryOut = false → t.queues = s.queues ∧ t.store = s.store ∧ t.seqs = s.seqs ∧
          (losses = 0 → Counts [.refusals .ordinaryOut, .station .ordinarySkipped] s t)) ∧
        (waits = true → t.store = s.store ∧ t.seqs = s.seqs ∧
          t.queues = { s.queues with
            localClass2 := s.queues.localClass2.map (fun h =>
              if h.frame.kind = .presence then
                { h with frame := { h.frame with payload := t.presenceNow, crc := crc32 t.presenceNow } }
              else h) } ∧
          (losses = 0 → Counts [.station .presenceRefreshed] s t)) ∧
        (losses = 0 ∨ s.start = .reReading → t = { s with
          peers := t.peers, queues := t.queues, holdback := t.holdback, store := t.store, seqs := t.seqs
          counters := t.counters }) ∧
        (losses ≠ 0 → s.start = .running →
          (s.image.roles.phone = .roadside → ∀ i, (s.line i).state = .requesting →
            t.line i = { s.line i with
              tone := if (s.line i).reestablishing = false ∧ t.phoneHome ≠ 0 ∧ t.peerPresent t.phoneHome = true then .calling
                else .unavailable }) ∧
          (s.image.roles.sign = .signs → (∃ a ∈ s.image.zoneStations, a ≠ 0 ∧ falls (s.peer a) = true) →
            t.signs.zone = ⟨t.zoneLevel .ice, t.zoneLevel .wind, t.zoneLevel .fog⟩ ∧
            t.signs.conditions = conditionsEntry s.image t.signs.zone) ∧
          t = { s with
            peers := t.peers, phone := { s.phone with lines := t.phone.lines }, signs := t.signs, links := t.links
            queues := t.queues, holdback := t.holdback, store := t.store, seqs := t.seqs, counters := t.counters
            alerts := t.alerts })) ∧
  ∀ s : State,
    let here (a : Addr) : Prop := a ≠ 0 ∧ (s.peer a).state = .present
    let chooses (home primary alternate : Addr) : Prop :=
      (here primary → home = primary) ∧ (¬ here primary → here alternate → home = alternate) ∧
        (¬ here primary → ¬ here alternate → home = primary)
    chooses s.phoneHome s.image.phonePrimary s.image.phoneAlternate ∧
    chooses s.tollHome s.image.tollPrimary s.image.tollAlternate ∧
    chooses s.weatherHome s.image.weatherPrimary s.image.weatherAlternate ∧
    let roles := s.image.roles
    let byte (k : Nat) (n : Nat) : Prop := byteAt s.presenceNow k = BitVec.ofNat 8 n
    let port (p : Port) : Nat :=
      let r := s.port p
      32 * (match r.link with | .down => 0 | .settling => 1 | .joining => 2 | .up => 3 | .isolated => 4) +
        8 * (match r.errorState with | .active => 0 | .warning => 1 | .isolated => 2) + if r.link = .up then 0 else 4
    let level (c : Condition) : Nat :=
      let v := (s.weather.conditions.get c).shown
      if roles.weather = .station then
        4 * (match v.flag with | .valid => 0 | .held => 1 | .unknown => 2) + v.level % 4
      else 8
    s.presenceNow.length = 12 ∧
    byte 0 (64 * (match roles.phone with | .none => 0 | .roadside => 1 | .switchboard => 2) +
      16 * (match roles.toll with | .none => 0 | .reader => 1 | .collector => 2) +
      4 * (match roles.weather with | .none => 0 | .station => 1 | .home => 2) +
      match roles.sign with | .none => 0 | .signs => 1 | .centre => 2) ∧
    byte 1 (if roles.sign = .signs then roles.signCount % 8 else 0) ∧
    byte 2 (port .west) ∧ byte 3 s.west.neighbour.toNat ∧ byte 4 (port .east) ∧ byte 5 s.east.neighbour.toNat ∧
    byte 6 (level .ice) ∧ byte 7 (level .wind) ∧ byte 8 (level .fog) ∧
    byte 9 (if roles.phone = .roadside then
      allFour.countP (fun i => (s.line i).state != .idle && (s.line i).state != .hookCheck) else 0) ∧
    byte 10 (if roles.toll = .reader then s.journal.entries.length else 0) ∧
    byte 11 (allAlerts.countP (fun a => (s.alert a).latched))

/-! ## Telephone lines (chapter 7) -/

/-- HIGHWAY_MARKED_FRAME (R104): the highway is IN_STEP, its loss timer armed with 2, and a new period begins; after 16 frames
the period that ends is taken, at another count it is a slip, and after LOST there is none. R106, R108: in RUNNING a taken
period gives each line its hook sample; in RE_READING the runs alone go on (R124). R126: it gives each channel its command,
and after LOST the previous octets are 0x00. R120, R127: it gives a VOICE frame for each line in TALKING and for each channel
that was TALKING as the period began. R106, R107, R123, R126: the octets and samples sent in the new period follow the states
and the slots. The model's choices: the sample that begins HOOK_CHECK counts as the first (log 13); a command stays taken
until its row carries it out, a later one replaces it, and none outlives a loss of the highway (log 14); the VOICE frames go
lowest number first (log 45); the state code is the one before the taken commands act (log 47); a line still CLEARING after
LOST goes on CLEARING (log 53); in RE_READING each channel is sent the code of its state, without CLEARED (log 54). Its
reading: at a slip and after LOST a period begins as after 16 frames, with its octets and slots, and talking channels are
noted (log 26). -/
def Obligations.MarkedFramesTakeSamples : Prop :=
  ∀ (s : State) (n : Nat) (channels : List HwChannel), s.start = .running ∨ s.start = .reReading →
    s.image.roles.phone ≠ .none →
    let carried (c : Fin 16) : HwChannel := channels.getD c.val {}
    let running := s.start = .running
    let ends := s.phone.inStep = true ∧ n = 16
    let roadside := s.image.roles.phone = .roadside
    let voiceFrame (p : Place) (dest : Addr) (line : Fin 4) (c : Fin 16) : Frame :=
      localFrame s .voice dest false (BitVec.ofNat 8 line.val) (s.voice p).seq ((carried c).samples.flatMap wordBytes)
    let lineFrame (i : Fin 4) : Option Frame :=
      if (s.line i).state = .talking then
        (s.line i).partner.map (fun a => voiceFrame (.line i) a i ⟨i.val, by omega⟩)
      else none
    let channelFrame (c : Fin 16) : Option Frame :=
      if (s.channel c).state = .talking ∧ (s.channel c).voicing = true then
        (s.channel c).party.map (fun p => voiceFrame (.channel c) p.station p.line c)
      else none
    let speaks (p : Place) : Bool :=
      match p with
      | .line i => decide roadside && (lineFrame i).isSome
      | .channel c => !decide roadside && (channelFrame c).isSome
    let frames := if running ∧ ends then (if roadside then allFour.filterMap lineFrame else allSixteen.filterMap channelFrame)
      else []
    let plays (p : Place) : Bool :=
      match p with
      | .line _ => decide roadside
      | .channel _ => !decide roadside
    let begun (r : Channel) : Channel :=
      if roadside then r else { r with cleared := r.cleared && !decide running, voicing := r.state == .talking }
    let unheard (i : Fin 4) : Bool := (carried ⟨i.val, by omega⟩).cmd != 0 && (carried ⟨i.val, by omega⟩).cmd != 1
    let counted : List StationCounter :=
      (if s.phone.inStep = true ∧ n ≠ 16 then [.highwaySlip] else []) ++
      (if ends ∧ roadside then (allFour.filter unheard).map (fun _ => .hookBad) else []) ++
      (if running ∧ ends ∧ ¬ roadside then
        (allSixteen.filter (fun c => decide (5 < (carried c).cmd.toNat))).map (fun _ => .consoleBad) else []) ++
      (allPlaces.filter (fun p => plays p && (s.voice p).slot.play.2.2)).map (fun _ => .voiceConcealed)
    ∃ u t, UrgentSent frames [] [] s u ∧ exec (.highwayMarkedFrame n channels) s = .next t ∧
      (∀ c, t.counter c = Nat.repeat satInc ((counted.map Counter.station).count c) (u.counter c)) ∧
      (∀ i : Fin 4,
        let l := s.line i
        let octet := (carried ⟨i.val, by omega⟩).cmd
        (¬ (roadside ∧ ends) ∨ unheard i = true → t.line i = l) ∧
        (roadside → ends → octet = 1 → t.line i =
          if running ∧ l.state = .idle then { l with state := .hookCheck, offRun := 1, onRun := 0 }
          else { l with offRun := min (l.offRun + 1) 255, onRun := 0 }) ∧
        (roadside → ends → octet = 0 → t.line i =
          if running ∧ l.state = .hookCheck then { offRun := 0, onRun := min (l.onRun + 1) 255 }
          else { l with offRun := 0, onRun := min (l.onRun + 1) 255 })) ∧
      (∀ c : Fin 16,
        let r := s.channel c
        let octet := (carried c).cmd
        (s.phone.inStep = false → t.channel c = begun { r with previous := 0, takenCmd := none }) ∧
        (s.phone.inStep = true → ¬ (running ∧ ends ∧ ¬ roadside) → t.channel c = begun r) ∧
        (running → ends → ¬ roadside → t.channel c = begun (
          match if octet = r.previous then none else readConsole octet with
          | some k => { r with previous := octet, takenCmd := some k, takenArg := (carried c).arg }
          | none => { r with previous := octet }))) ∧
      (∀ p, t.voice p = {
        seq := if running ∧ ends ∧ speaks p = true then (s.voice p).seq + 1 else (s.voice p).seq
        slot := if plays p then (s.voice p).slot.play.2.1 else (s.voice p).slot }) ∧
      (roadside →
        (∀ i : Fin 4, t.phone.out.get {} ⟨i.val, by omega⟩ = {
          cmd := if (t.line i).state = .ringing then 1 else 0
          arg := match (t.line i).state, (t.line i).tone with
            | .requesting, .calling => 1
            | .requesting, .unavailable => 3
            | .queued, _ => 2
            | .alerting, _ => 1
            | .ended, _ => 4
            | _, _ => 0
          samples := (s.voice (.line i)).slot.play.1 }) ∧
        ∀ c : Fin 16, 4 ≤ c.val → t.phone.out.get {} c = {}) ∧
      (¬ roadside → ∀ c : Fin 16,
        let r := s.channel c
        (running → r.cleared = true →
          t.phone.out.get {} c = { cmd := 6, arg := 0, samples := (s.voice (.channel c)).slot.play.1 }) ∧
        (¬ running ∨ r.cleared = false → t.phone.out.get {} c = {
          cmd := match r.state with
            | .closed => 0
            | .free => 1
            | .offered => 2
            | .talking => 3
            | .callingBack => 4
            | .clearing => 5
          arg := match r.state, r.party with
            | .closed, _ | .free, _ | _, none => 0
            | _, some p => p.station ++ BitVec.ofNat 2 p.line.val
          samples := (s.voice (.channel c)).slot.play.1 })) ∧
      t = { s with
        phone := { t.phone with inStep := true, loss := Timer.arm 2 }
        switchboard := { s.switchboard with channels := t.switchboard.channels }
        queues := u.queues, store := u.store, counters := t.counters, alerts := u.alerts }

/-- R121: a VOICE frame that is copied is taken when it is addressed directly to this station, has 32 bytes and comes from the
partner of the TALKING line of its tag, or from the party of a TALKING channel; it arms the supervision timer again and goes
to the slot of the line or channel; any other is refused and counted. R122: how a slot takes a frame with its sequence.
R123: what a slot gives for a period, and how it is left. That the expected sequence of an EMPTY slot is 0 is the model's
choice (log 44). -/
def Obligations.VoiceSlots : Prop :=
  (∀ (s : State) (f : Frame), s.image.address ≠ 0 →
    let good := f.group = false ∧ f.dest = s.image.address ∧ f.payload.length = 32
    let samples := (List.range 16).map (fun i => wordAt f.payload (2 * i))
    let placed (p : Place) (t : State) : Prop :=
      let taken := (s.voice p).slot.takeFrame f.seq samples
      t.voice p = { s.voice p with slot := taken.1 } ∧ (∀ q, q ≠ p → t.voice q = s.voice q) ∧
        (match taken.2 with
          | some k => Counts [.station k] s t
          | none => t.counters = s.counters)
    let refused (r : Bool × State) : Prop :=
      r.1 = false ∧ Counts [.station .voiceRefused] s r.2 ∧ r.2 = { s with counters := r.2.counters }
    (∀ i : Fin 4, f.tag = BitVec.ofNat 8 i.val →
      let l := s.line i
      let t := (s.lineVoiceCopy f).2
      (good → l.state = .talking → l.partner = some f.source →
        (s.lineVoiceCopy f).1 = true ∧ t.line i = { l with supervision := Timer.arm 64 } ∧
          (∀ j, j ≠ i → t.line j = s.line j) ∧ placed (.line i) t ∧
          t = { s with
            phone := { s.phone with lines := t.phone.lines, voice := t.phone.voice }, counters := t.counters }) ∧
      (¬ good ∨ l.state ≠ .talking ∨ l.partner ≠ some f.source → refused (s.lineVoiceCopy f))) ∧
    (4 ≤ f.tag.toNat → refused (s.lineVoiceCopy f) ∧ refused (s.switchVoiceCopy f)) ∧
    (s.switchboard.Sound → ∀ line : Fin 4, f.tag = BitVec.ofNat 8 line.val →
      let talks (c : Fin 16) : Prop :=
        (s.channel c).state = .talking ∧ (s.channel c).party = some { station := f.source, line := line }
      (∀ c, good → talks c →
        let t := (s.switchVoiceCopy f).2
        (s.switchVoiceCopy f).1 = true ∧ t.channel c = { s.channel c with supervision := Timer.arm 64 } ∧
          (∀ d, d ≠ c → t.channel d = s.channel d) ∧ placed (.channel c) t ∧
          t = { s with
            switchboard := { s.switchboard with channels := t.switchboard.channels }
            phone := { s.phone with voice := t.phone.voice }, counters := t.counters }) ∧
      (¬ good ∨ (∀ c, ¬ talks c) → refused (s.switchVoiceCopy f)))) ∧
  ∀ b : Slot, b.Sound →
    (∀ (q : Word) (samples : List Word), samples ≠ [] →
      let d := (q - b.expected).toNat
      let alone : Slot := { state := .filling, expected := q, frames := [(0, samples)] }
      (b.state = .empty → b.takeFrame q samples = (alone, none)) ∧
      (b.state ≠ .empty →
        (32768 ≤ d → b.takeFrame q samples = (b, some .voiceLate)) ∧
        (8 ≤ d → d ≤ 32767 → b.takeFrame q samples = (alone, some .voiceResync)) ∧
        (d ≤ 7 → (∃ x, (d, x) ∈ b.frames) → b.takeFrame q samples = (b, some .voiceDuplicate)) ∧
        (d ≤ 7 → (∀ x, (d, x) ∉ b.frames) → ∃ held,
          (∀ e, e ∈ held ↔ e = (d, samples) ∨ e ∈ b.frames) ∧ held.length = b.frames.length + 1 ∧
          b.takeFrame q samples =
            ({ b with frames := held, state := if b.frames = [] then b.state else .playing }, none)))) ∧
    (b.state ≠ .playing → b.play = (List.replicate 16 0, b, false)) ∧
    (b.state = .playing →
      let later : Slot := { b with
        expected := b.expected + 1, frames := (b.frames.filter (fun e => e.1 != 0)).map (fun e => (e.1 - 1, e.2)) }
      (∀ x, (0, x) ∈ b.frames → b.play = (x, { later with last := some x, misses := 0 }, false)) ∧
      ((∀ x, (0, x) ∉ b.frames) →
        b.play =
          (match b.last, b.misses with
            | some x, 0 => x
            | some x, 1 => x.map (fun y => BitVec.ofInt 16 (y.toInt.tdiv 2))
            | _, _ => List.replicate 16 0,
           { later with misses := min (b.misses + 1) 255 }, true)))

/-- HIGHWAY_LOSS_TIMER_EXPIRY (R104, R105, R139): the highway is LOST, nothing is sent on it and every slot is EMPTY. A line of
a ROADSIDE station with a call sends RELEASE, to its partner or from REQUESTING to the home choice; it is IDLE afterwards, or
CLEARING from TALKING, and its runs are 0; where a station has signs, the incident state follows a fall of the off-hook count
to 0 (R119, R180). Every channel of a SWITCHBOARD station is CLOSED; a call that was OFFERED goes back
to the waiting list in its place and is sent QUEUED, or is dropped where 32 wait, and a line being called back is sent
RELEASE. The model's choices: the lines are taken line 0 first (log 45); no promotion runs while the channels are being closed
(log 32); a command taken and not yet carried out is forgotten (log 14); at telephone role NONE a timer kept from an earlier
role expires too (log 60); nothing is sent and every slot is EMPTY at once (log 61). -/
def Obligations.HighwayLossEndsCalls : Prop :=
  ∀ s : State, s.start = .running → s.phone.loss.due = true →
    (∀ c, (s.channel c).state = .offered → (s.channel c).party ≠ none ∧ (s.channel c).arrival ≠ none) →
    s.switchboard.Sound →
    let roadside := s.image.roles.phone = .roadside
    let switchboard := s.image.roles.phone = .switchboard
    let lineSends (i : Fin 4) : Option Call :=
      match (s.line i).state with
      | .idle | .hookCheck | .ended | .clearing => none
      | .requesting => if s.phoneHome = 0 then none else some { dest := s.phoneHome, line := i, message := .release }
      | .queued | .alerting | .talking | .ringing =>
        (s.line i).partner.map (fun a => { dest := a, line := i, message := .release })
    let close (x : List Waiting × List Call) (c : Fin 16) : List Waiting × List Call :=
      match (s.channel c).state, (s.channel c).party, (s.channel c).arrival with
      | .offered, some p, some a =>
        if x.1.length < 32 then
          let list := joinWaiting { party := p, arrival := a, refresh := Timer.armRepeating 32 } x.1
          (list, x.2 ++ [{ dest := p.station, line := p.line, message := .queued, arg := positionOf p list }])
        else x
      | .callingBack, some p, _ => (x.1, x.2 ++ [{ dest := p.station, line := p.line, message := .release }])
      | _, _, _ => x
    let closed := allSixteen.foldl close (s.switchboard.waiting, [])
    ∃ t, exec .highwayLossTimerExpiry s = .next t ∧
      CallsSent (if roadside then allFour.filterMap lineSends else if switchboard then closed.2 else []) [.highwayLoss] [] s t ∧
      (∀ p, t.voice p = { s.voice p with slot := {} }) ∧
      (roadside → ∀ i, t.line i =
        match (s.line i).state with
        | .idle | .clearing => { s.line i with offRun := 0, onRun := 0 }
        | .talking => { s.line i with
            state := .clearing, position := none, channel := none, supervision := Timer.stopped
            clearing := Timer.armRepeating 8, repeats := 0, offRun := 0, onRun := 0 }
        | _ => {}) ∧
      (¬ roadside → t.phone.lines = s.phone.lines) ∧ IncidentFollows s t ∧
      (switchboard → t.switchboard.waiting = closed.1 ∧ ∀ c, t.channel c =
        { cleared := (s.channel c).cleared, previous := (s.channel c).previous, takenArg := (s.channel c).takenArg }) ∧
      (¬ switchboard → t.switchboard = s.switchboard) ∧
      t = { s with
        phone := { t.phone with inStep := false, loss := Timer.stopped, out := [] }
        switchboard := { s.switchboard with channels := t.switchboard.channels, waiting := t.switchboard.waiting }
        signs := t.signs, queues := t.queues, store := t.store, seqs := t.seqs, counters := t.counters
        alerts := t.alerts }

/-- HOOK_CHECK_PASSED (R108, R109) and SETUP_RETRY_EXPIRY (R109): the line is REQUESTING with its tone, and a SETUP goes to
the home choice, if there is one; UNAVAILABLE taken on entry or after CALLING latches the alert. R119, R180: where a station
has signs, the first line past hook check begins the incident delay, or ends a clear delay; that it begins none while INCIDENT
entries are disabled is the model's choice (log 62). -/
def Obligations.LinesRequestCalls : Prop :=
  ∀ (s : State) (i : Fin 4), s.start = .running → s.image.roles.phone = .roadside →
    let l := s.line i
    let tone : Tone :=
      if l.reestablishing = false ∧ s.phoneHome ≠ 0 ∧ s.peerPresent s.phoneHome = true then .calling else .unavailable
    let gives (c : Instr) (l' : Line) (cs : List StationCounter) (latches : Bool) : Prop :=
      ∃ t, exec c s = .next t ∧ t.line i = l' ∧ (∀ j, j ≠ i → t.line j = s.line j) ∧
        CallsSent (if s.phoneHome = 0 then [] else [{ dest := s.phoneHome, line := i, message := .setup }]) cs
          (if latches then [.switchboardUnreachable] else []) s t ∧
        IncidentFollows s t ∧
        t = { s with
          phone := { s.phone with lines := t.phone.lines }, queues := t.queues, store := t.store, seqs := t.seqs
          signs := t.signs, counters := t.counters, alerts := t.alerts }
    (l.state = .hookCheck → 5 ≤ l.offRun → gives (.hookCheckPassed i)
      { l with
        state := .requesting, partner := none, position := none, channel := none, supervision := Timer.stopped
        retry := Timer.armRepeating 8, tone := tone } [.callsRequested] (tone == .unavailable)) ∧
    (l.state = .requesting → l.retry.due = true → gives (.setupRetryExpiry i)
      { l with retry := { l.retry with due := false }, tone := tone } [] (tone == .unavailable && l.tone == .calling))

/-- HANG_UP (R114), LINE_ANSWER and LINE_RING_TIMEOUT (R116), LINE_CLEARING_EXPIRY (R115) and LINE_SUPERVISION_EXPIRY (R112):
the message each sends, and the state the line is left in. R119, R180: where a station has signs, the incident state follows
the off-hook count. That an off-hook run of 5 or more kept from before the ring answers it at once is the model's choice
(log 46). -/
def Obligations.LineCallsEnd : Prop :=
  ∀ (s : State) (i : Fin 4), s.start = .running → s.image.roles.phone = .roadside →
    let l := s.line i
    let home := s.phoneHome
    let idle : Line := { offRun := l.offRun, onRun := l.onRun }
    let tone : Tone :=
      if l.reestablishing = false ∧ l.state ≠ .talking ∧ home ≠ 0 ∧ s.peerPresent home = true then .calling
      else .unavailable
    let requesting : Line :=
      { l with
        state := .requesting, partner := none, position := none, channel := none, supervision := Timer.stopped
        retry := Timer.armRepeating 8, reestablishing := l.reestablishing || l.state == .talking, tone := tone }
    let toHome (m : CallMessage) : List Call := if home = 0 then [] else [{ dest := home, line := i, message := m }]
    let toPartner (m : CallMessage) : List Call :=
      match l.partner with
      | some a => [{ dest := a, line := i, message := m }]
      | none => []
    let gives (c : Instr) (l' : Line) (sent : List Call) (cs : List StationCounter) (reports : List Alert) : Prop :=
      ∃ t, exec c s = .next t ∧ t.line i = l' ∧ (∀ j, j ≠ i → t.line j = s.line j) ∧
        (∀ p, t.voice p = if p = .line i ∧ (l.state = .talking ∨ l'.state = .talking) then { s.voice p with slot := {} }
          else s.voice p) ∧
        CallsSent sent cs reports s t ∧ IncidentFollows s t ∧
        t = { s with
          phone := { s.phone with lines := t.phone.lines, voice := t.phone.voice }, queues := t.queues, store := t.store
          seqs := t.seqs, counters := t.counters, signs := t.signs, alerts := t.alerts }
    (25 ≤ l.onRun →
      (l.state = .requesting → gives (.hangUp i) idle (toHome .release) [] []) ∧
      (l.state = .queued ∨ l.state = .alerting → gives (.hangUp i) idle (toPartner .release) [] []) ∧
      (l.state = .talking → gives (.hangUp i)
        { l with
          state := .clearing, position := none, channel := none, supervision := Timer.stopped
          clearing := Timer.armRepeating 8, repeats := 0 } (toPartner .release) [] []) ∧
      (l.state = .ended → gives (.hangUp i) idle [] [] [])) ∧
    (l.state = .ringing → 5 ≤ l.offRun → gives (.lineAnswer i)
      { l with
        state := .talking, position := none, retry := Timer.stopped, ring := Timer.stopped
        supervision := Timer.arm 64 } (toPartner .ringAnswered) [.callsConnected] []) ∧
    (l.state = .ringing → l.ring.due = true → gives (.lineRingTimeout i) idle (toPartner .release) [] []) ∧
    (l.state = .clearing → l.clearing.due = true →
      gives (.lineClearingExpiry i)
        (if l.repeats + 1 < 4 then { l with clearing := { l.clearing with due := false }, repeats := l.repeats + 1 }
         else idle) (toPartner .release) [] []) ∧
    (l.supervision.due = true →
      (l.state = .ringing → gives (.lineSupervisionExpiry i) idle (toPartner .release) [.supervisionLapses] []) ∧
      (l.state = .queued ∨ l.state = .alerting ∨ l.state = .talking →
        gives (.lineSupervisionExpiry i) requesting (toHome .setup) [.supervisionLapses]
          (if tone = .unavailable then [.switchboardUnreachable] else [])))

/-- R110: a CALL frame that is copied at a ROADSIDE station is taken when it is addressed directly, has a line's tag and two
bytes, and holds a message of a switchboard with an argument in its set; any other is refused and counted. R112: one from the
partner arms the supervision timer again. What the line then does with each message: ACCEPT, QUEUED and CONNECT (R111),
RELEASE, which is always answered, and RELEASED (R113), RING (R116, R117). The model's readings: a line that becomes ENDED keeps
its partner and its re-establishing flag, and CONNECT keeps the flag (log 27); any message of the partner, RELEASED among them,
arms the supervision again in the states that keep it (log 35); SETUP frames that a RING removes free their cells oldest first
(log 64). R119, R180: where a station has signs, the incident state follows the off-hook count (log 62). -/
def Obligations.LineTakesCalls : Prop :=
  ∀ (s : State) (f : Frame), s.image.address ≠ 0 → s.image.roles.phone = .roadside →
    let good (i : Fin 4) (m : CallMessage) (arg : Nat) : Prop :=
      f.group = false ∧ f.dest = s.image.address ∧ f.tag = BitVec.ofNat 8 i.val ∧
        ((byteAt f.payload 0).toNat, (byteAt f.payload 1).toNat) = (m.code, arg) ∧ f.payload.length = 2 ∧
        (m = .accept ∧ arg ≤ 15 ∨ m = .queued ∧ 1 ≤ arg ∧ arg ≤ 32 ∨ m ∈ [.connect, .release, .released, .ring])
    let r := s.lineCallCopy f
    ((∀ i m arg, ¬ good i m arg) → r.1 = false ∧ Counts [.station .callBad] s r.2 ∧ r.2 = { s with counters := r.2.counters }) ∧
    ∀ i m arg, good i m arg →
      let t := r.2
      let a := f.source
      let ours := (s.line i).partner = some a
      let supervised := (s.line i).state ∈ [LineState.queued, .alerting, .talking, .ringing]
      let l : Line := if ours ∧ supervised then { s.line i with supervision := Timer.arm 64 } else s.line i
      let idle : Line := { offRun := l.offRun, onRun := l.onRun }
      let talking : Line := { l with
        state := .talking, partner := some a, position := none, retry := Timer.stopped, ring := Timer.stopped
        supervision := Timer.arm 64 }
      let others (l' : Line) : Prop :=
        t.line i = l' ∧ (∀ j, j ≠ i → t.line j = s.line j) ∧ IncidentFollows s t ∧
        (∀ p, t.voice p = if p = .line i ∧ (l.state == .talking) ≠ (l'.state == .talking) then { s.voice p with slot := {} }
          else s.voice p) ∧
        t = { s with
          phone := { s.phone with lines := t.phone.lines, voice := t.phone.voice }, queues := t.queues, store := t.store
          seqs := t.seqs, counters := t.counters, alerts := t.alerts, signs := t.signs }
      let answers (m : CallMessage) : List Call := [{ dest := a, line := i, message := m }]
      let gives (l' : Line) (sent : List Call) (cs : List StationCounter) : Prop :=
        others l' ∧
        CallsSent sent (cs ++ if l.state ≠ .talking ∧ l'.state = .talking then [.callsConnected] else []) [] s t
      let answered (l' : Line) : Prop :=
        (l.state = .requesting ∨ ((l.state = .queued ∨ l.state = .alerting) ∧ ours) → gives l' [] []) ∧
        (l.state = .talking → ours → gives l [] []) ∧
        ((l.state = .queued ∨ l.state = .alerting ∨ l.state = .talking) → ¬ ours → gives l (answers .release) [.callStray]) ∧
        (l.state = .idle ∨ l.state = .hookCheck ∨ l.state = .ended → gives l (answers .release) [.callStray]) ∧
        (l.state = .clearing ∨ l.state = .ringing → gives l [] [.callStray])
      r.1 = true ∧
      (m = .accept → answered { l with
        state := .alerting, partner := some a, position := none, channel := some arg, retry := Timer.stopped
        supervision := Timer.arm 64 }) ∧
      (m = .queued → answered { l with
        state := .queued, partner := some a, position := some arg, channel := none, retry := Timer.stopped
        supervision := Timer.arm 64 }) ∧
      (m = .connect → answered talking) ∧
      (m = .release →
        (ours → l.state = .queued ∨ l.state = .alerting ∨ l.state = .talking →
          gives { l with state := .ended, position := none, channel := none, supervision := Timer.stopped }
            (answers .released) []) ∧
        (ours → l.state = .clearing ∨ l.state = .ringing → gives idle (answers .released) []) ∧
        (¬ ours ∨ l.state = .idle ∨ l.state = .hookCheck ∨ l.state = .requesting ∨ l.state = .ended →
          gives l (answers .released) [])) ∧
      (m = .released →
        (ours → l.state = .clearing → gives idle [] []) ∧ (¬ ours ∨ l.state ≠ .clearing → gives l [] [])) ∧
      (m = .ring →
        (l.state = .idle → s.phone.inStep = true →
          gives { l with
            state := .ringing, partner := some a, supervision := Timer.arm 64, ring := Timer.arm 3660 }
            (answers .ringAck) []) ∧
        (l.state = .idle → s.phone.inStep = false → gives l (answers .lineBusy) []) ∧
        (l.state = .ringing → gives l (answers (if ours then .ringAck else .lineBusy)) []) ∧
        (l.state = .queued ∨ l.state = .alerting ∨ l.state = .talking ∨ l.state = .clearing ∨ l.state = .ended →
          gives l (answers .lineBusy) []) ∧
        (l.state = .hookCheck ∨ l.state = .requesting →
          let setup (h : Held) : Bool :=
            h.frame.kind == .call && h.frame.tag == BitVec.ofNat 8 i.val && byteAt h.frame.payload 0 == 1
          ∃ u, CallsSent (answers .ringAnswered) [.callsConnected] [] s u ∧ others talking ∧
            t.queues = { u.queues with localUrgent := u.queues.localUrgent.filter (fun h => !setup h) } ∧
            t.store = (u.queues.localUrgent.filter setup).foldl (fun st h =>
              if h.user = .journal then st else st.release h.user h.cell) u.store ∧
            t.seqs = u.seqs ∧ t.counters = u.counters ∧ t.alerts = u.alerts))

/-! ## The switchboard (chapter 8) -/

/-- R130: a CALL frame that is copied at a SWITCHBOARD station is taken when it is addressed directly, has a line's tag and two
bytes, and holds a message of a roadside station; any other is refused and counted. One from a party that a channel holds in
TALKING or CALLING_BACK arms its supervision timer again. What each message then does: SETUP, which is refused after all where
the list is full (R131), RELEASE, which is always answered, and RELEASED (R134), RING_ACK, RING_ANSWERED and LINE_BUSY (R136),
with the promotion that follows (R129). -/
def Obligations.SwitchboardTakesCalls : Prop :=
  ∀ (s : State) (f : Frame), s.image.address ≠ 0 → s.switchboard.Sound →
    let x := s.switchCallCopy f
    let good (line : Fin 4) (m : CallMessage) : Prop :=
      f.group = false ∧ f.dest = s.image.address ∧ f.tag = BitVec.ofNat 8 line.val ∧ f.payload.length = 2 ∧
        (byteAt f.payload 0).toNat = m.code ∧ m ∈ [.setup, .release, .released, .ringAck, .lineBusy, .ringAnswered]
    let refused (k : StationCounter) : Prop := x.1 = false ∧ Counts [.station k] s x.2 ∧ x.2 = { s with counters := x.2.counters }
    ((∀ line m, ¬ good line m) → refused .switchboardCallBad) ∧
    ∀ line m, good line m →
      let p : Party := { station := f.source, line := line }
      let list := s.switchboard.waiting
      let call (m : CallMessage) (arg : Nat) : List Call := [{ dest := f.source, line := line, message := m, arg := arg }]
      let kept (t : State) : Prop := t.switchboard.arrival = s.switchboard.arrival
      let gives (c : Fin 16) (r : Channel) (l : List Waiting) (sent : List Call) (cs : List StationCounter) : Prop :=
        x.1 = true ∧ ChannelTakes c r l sent cs s x.2
      let unheld (l : List Waiting) (sent : List Call) (cs : List StationCounter) : Prop :=
        gives 0 (s.channel 0) l sent cs ∧ kept x.2
      let stray : CallMessage → List Call
        | .lineBusy => []
        | _ => call .release 0
      (∀ c : Fin 16, p ∈ (s.channel c).held →
        let old := s.channel c
        let r : Channel :=
          if old.state = .talking ∨ old.state = .callingBack then { old with supervision := Timer.arm 64 } else old
        let bare (cleared : Bool) : Channel :=
          { cleared := cleared, previous := r.previous, takenCmd := r.takenCmd, takenArg := r.takenArg }
        let talks : Channel := { bare r.cleared with
          state := .talking, party := r.party, arrival := r.arrival, supervision := Timer.arm 64 }
        let frees (cleared : Bool) (sent : List Call) (cs : List StationCounter) : Prop :=
          let new := (bare cleared).freed c list
          gives c new.1 new.2.1 (sent ++ new.2.2.1) (cs ++ new.2.2.2)
        kept x.2 ∧
        (m = .setup →
          (r.state = .offered → gives c r list (call .accept c.val) [.setupsRepeated]) ∧
          (r.state = .talking → gives c r list (call .connect 0) [.setupsRepeated]) ∧
          (r.state = .callingBack → gives c talks list (call .connect 0) [.callsAnswered]) ∧
          (r.state = .clearing → gives c r list (call .release 0) [.setupsRepeated])) ∧
        (m = .release → frees (r.cleared || r.state != .clearing) (call .released 0) []) ∧
        (m = .released → (r.state = .clearing → frees r.cleared [] []) ∧ (r.state ≠ .clearing → gives c r list [] [])) ∧
        (m = .ringAck → r.state = .callingBack → gives c r list [] []) ∧
        (m = .ringAnswered → (r.state = .callingBack → gives c talks list [] [.callsAnswered]) ∧
          (r.state = .talking → gives c r list [] [])) ∧
        (m = .lineBusy → r.state = .callingBack → frees true [] [.callbacksBusy]) ∧
        (m = .ringAck ∨ m = .lineBusy → r.state ≠ .callingBack → gives c r list (stray m) [.switchboardStray]) ∧
        (m = .ringAnswered → r.state ≠ .callingBack → r.state ≠ .talking → gives c r list (stray m) [.switchboardStray])) ∧
      ((∀ c, p ∉ (s.channel c).held) →
        (m = .ringAck ∨ m = .ringAnswered ∨ m = .lineBusy → unheld list (stray m) [.switchboardStray]) ∧
        (m = .released → unheld list [] []) ∧
        (m = .release → unheld (list.filter (fun w => w.party != p)) (call .released 0) []) ∧
        (m = .setup →
          (∀ k w, list[k]? = some w → w.party = p → unheld list (call .queued (k + 1)) [.setupsRepeated]) ∧
          ((∀ w ∈ list, w.party ≠ p) →
            let arrival := s.switchboard.arrival
            (∀ c : Fin 16, (s.channel c).state = .free → (∀ d : Fin 16, d.val < c.val → (s.channel d).state ≠ .free) →
              let r := s.channel c
              gives c { cleared := r.cleared, previous := r.previous, takenCmd := r.takenCmd, takenArg := r.takenArg
                        state := .offered, party := some p, arrival := some arrival, refresh := Timer.armRepeating 32 }
                [] (call .accept c.val) [.setupsTaken, .callsOffered] ∧
              x.2.switchboard.arrival = arrival + 1) ∧
            ((∀ c, (s.channel c).state ≠ .free) → list.length < 32 →
              gives 0 (s.channel 0)
                (list ++ [{ party := p, arrival := arrival, refresh := Timer.armRepeating 32 }])
                (call .queued (list.length + 1)) [.setupsTaken] ∧
              x.2.switchboard.arrival = arrival + 1) ∧
            ((∀ c, (s.channel c).state ≠ .free) → list.length = 32 → refused .setupRefused))))

/-- OPEN, CLOSE (R132), ANSWER, RELEASE (R133) and CALLBACK (R135), each the lowest-numbered taken command: the state the
channel is left in, the message it sends and the promotion that follows (R129); VOICE frames are built for a channel so made
to talk from the period in progress, which follows the one that took the command (R127); in another state, or for a party that
cannot be called back, the command is ignored and counted. That a command stays taken until its row is the model's choice
(log 14). -/
def Obligations.ConsoleCommands : Prop :=
  ∀ (s : State) (c : Fin 16), s.start = .running → s.image.roles.phone = .switchboard →
    (∀ d : Fin 16, d.val < c.val → (s.channel d).takenCmd = none) →
    let r := s.channel c
    let waiting := s.switchboard.waiting
    let bare : Channel := { cleared := r.cleared, previous := r.previous, takenArg := r.takenArg }
    let kept : Channel := { bare with party := r.party, arrival := r.arrival }
    let call (p : Party) (m : CallMessage) (arg : Nat) : List Call :=
      [{ dest := p.station, line := p.line, message := m, arg := arg }]
    let gives (i : Instr) (r' : Channel) (list : List Waiting) (sent : List Call) (cs : List StationCounter) : Prop :=
      ∃ t, exec i s = .next t ∧ ChannelTakes c r' list sent cs s t ∧ t.switchboard.arrival = s.switchboard.arrival
    let ignored (i : Instr) : Prop := gives i { r with takenCmd := none } waiting [] [.consoleIgnored]
    (r.takenCmd = some .openChannel →
      (r.state = .closed → (waiting ≠ [] → ∀ d, (s.channel d).state ≠ .free) →
        let new := bare.freed c waiting
        gives (.consoleOpen c) new.1 new.2.1 new.2.2.1 new.2.2.2) ∧
      (r.state ≠ .closed → ignored (.consoleOpen c))) ∧
    (r.takenCmd = some .closeChannel →
      (r.state = .free → gives (.consoleClose c) { bare with state := .closed } waiting [] []) ∧
      (∀ p, r.party = some p → ∀ a, r.arrival = some a → r.state = .offered →
        ((∀ d, (s.channel d).state ≠ .free) → waiting.length < 32 → (∀ w ∈ waiting, w.party ≠ p) →
          let list := joinWaiting { party := p, arrival := a, refresh := Timer.armRepeating 32 } waiting
          gives (.consoleClose c) { bare with state := .closed } list (call p .queued (positionOf p list)) []) ∧
        (∀ o : Fin 16, (s.channel o).state = .free → (∀ d : Fin 16, d.val < o.val → (s.channel d).state ≠ .free) →
          waiting = [] →
          ∃ t, exec (.consoleClose c) s = .next t ∧ t.channel c = bare ∧
            t.channel o = { s.channel o with
              state := .offered, party := some p, arrival := some a, voicing := false, refresh := Timer.armRepeating 32
              supervision := {}, ring := {}, clearing := {}, repeats := 0 } ∧
            (∀ d, d ≠ c → d ≠ o → t.channel d = s.channel d) ∧ t.switchboard.waiting = [] ∧
            (∀ v, t.voice v = s.voice v) ∧ CallsSent (call p .accept o.val) [.callsOffered] [] s t ∧
            t = { s with
              switchboard := { s.switchboard with channels := t.switchboard.channels }, queues := t.queues, store := t.store
              seqs := t.seqs, counters := t.counters, alerts := t.alerts })) ∧
      (r.state = .offered → 32 ≤ waiting.length → ignored (.consoleClose c)) ∧
      (r.state = .closed ∨ r.state = .talking ∨ r.state = .callingBack ∨ r.state = .clearing →
        ignored (.consoleClose c))) ∧
    (r.takenCmd = some .answer →
      (∀ p, r.party = some p → r.state = .offered →
        gives (.consoleAnswer c) { kept with state := .talking, voicing := true, supervision := Timer.arm 64 } waiting
          (call p .connect 0) [.callsAnswered]) ∧
      (r.state ≠ .offered → ignored (.consoleAnswer c))) ∧
    (r.takenCmd = some .release →
      (∀ p, r.party = some p → r.state = .offered ∨ r.state = .talking ∨ r.state = .callingBack →
        gives (.consoleRelease c) { kept with state := .clearing, clearing := Timer.armRepeating 8 } waiting
          (call p .release 0) []) ∧
      (r.state = .closed ∨ r.state = .free ∨ r.state = .clearing → ignored (.consoleRelease c))) ∧
    (r.takenCmd = some .callback →
      (r.state ≠ .free → ignored (.consoleCallback c)) ∧
      (r.state = .free → ∀ p : Party, r.takenArg = p.station ++ BitVec.ofNat 2 p.line.val →
        (p.station = 0 ∨ p.station = s.image.address → ignored (.consoleCallback c)) ∧
        (p.station ≠ 0 → p.station ≠ s.image.address →
          let talking (a : Option Word) : Channel :=
            { bare with
              state := .talking, party := some p, arrival := a, voicing := true, supervision := Timer.arm 64 }
          (s.switchboard.Sound → ∀ o, p ∈ (s.channel o).held →
            ((s.channel o).state ≠ .offered → ignored (.consoleCallback c)) ∧
            ((s.channel o).state = .offered →
              ∃ t, exec (.consoleCallback c) s = .next t ∧ t.channel c = talking (s.channel o).arrival ∧
                t.channel o = {
                  state := .free, cleared := (s.channel o).cleared, previous := (s.channel o).previous
                  takenCmd := (s.channel o).takenCmd, takenArg := (s.channel o).takenArg } ∧
                (∀ d, d ≠ c → d ≠ o → t.channel d = s.channel d) ∧
                (∀ v, t.voice v = if v = .channel c then { s.voice v with slot := {} } else s.voice v) ∧
                CallsSent (call p .connect 0) [.callsAnswered] [] s t ∧
                t = { s with
                  switchboard := { s.switchboard with channels := t.switchboard.channels }
                  phone := { s.phone with voice := t.phone.voice }, queues := t.queues, store := t.store, seqs := t.seqs
                  counters := t.counters, alerts := t.alerts })) ∧
          ((∀ d, p ∉ (s.channel d).held) →
            (∀ w ∈ waiting, w.party = p → (waiting.map (·.party)).Nodup →
              gives (.consoleCallback c) (talking (some w.arrival)) (waiting.filter (fun x => x.party != p))
                (call p .connect 0) [.callsAnswered]) ∧
            ((∀ w ∈ waiting, w.party ≠ p) →
              gives (.consoleCallback c)
                { bare with
                  state := .callingBack, party := some p, ring := Timer.armRepeating 8, supervision := Timer.arm 64 }
                waiting (call p .ring 0) [.callbacks])))))

/-- OFFER_REFRESH_EXPIRY, WAITING_REFRESH_EXPIRY and CHANNEL_SUPERVISION_EXPIRY (R137), CALLBACK_RING_EXPIRY (R135) and
CHANNEL_CLEARING_EXPIRY (R133): the message each sends again, the lapse of a channel, and the end of its clearing, with the
promotion that follows (R129). -/
def Obligations.SwitchboardTimers : Prop :=
  ∀ s : State, s.start = .running → s.image.roles.phone = .switchboard →
    let waiting := s.switchboard.waiting
    let gives (i : Instr) (c : Fin 16) (r : Channel) (list : List Waiting) (sent : List Call) (cs : List StationCounter) :
        Prop :=
      ∃ t, exec i s = .next t ∧ ChannelTakes c r list sent cs s t ∧ t.switchboard.arrival = s.switchboard.arrival
    let call (p : Party) (m : CallMessage) (arg : Nat) : List Call :=
      [{ dest := p.station, line := p.line, message := m, arg := arg }]
    (∀ (c : Fin 16) (p : Party), (s.channel c).party = some p →
      let r := s.channel c
      let bare : Channel :=
        { cleared := r.cleared, previous := r.previous, takenCmd := r.takenCmd, takenArg := r.takenArg }
      (r.state = .offered → r.refresh.due = true →
        gives (.offerRefreshExpiry c) c { r with refresh := { r.refresh with due := false } } waiting (call p .accept c.val)
          []) ∧
      (r.state = .talking ∨ r.state = .callingBack → r.supervision.due = true →
        gives (.channelSupervisionExpiry c) c
          { bare with state := .clearing, party := r.party, arrival := r.arrival, clearing := Timer.armRepeating 8 }
          waiting (call p .release 0) [.channelLapses]) ∧
      (r.state = .callingBack → r.ring.due = true →
        gives (.callbackRingExpiry c) c { r with ring := { r.ring with due := false } } waiting (call p .ring 0) []) ∧
      (r.state = .clearing → r.clearing.due = true →
        (r.repeats + 1 < 4 →
          gives (.channelClearingExpiry c) c
            { r with clearing := { r.clearing with due := false }, repeats := r.repeats + 1 } waiting (call p .release 0)
            []) ∧
        (4 ≤ r.repeats + 1 → (waiting ≠ [] → ∀ d, (s.channel d).state ≠ .free) →
          let new := bare.freed c waiting
          gives (.channelClearingExpiry c) c new.1 new.2.1 (call p .release 0 ++ new.2.2.1) new.2.2.2))) ∧
    ∀ (k : Nat) (w : Waiting), waiting[k]? = some w → (waiting.map (·.party)).Nodup → w.refresh.due = true →
      gives (.waitingRefreshExpiry w.party.station w.party.line) 0 (s.channel 0)
        (waiting.map (fun x => if x.party = w.party then { x with refresh := { x.refresh with due := false } } else x))
        (call w.party .queued (k + 1)) []

/-! ## Maintenance (chapter 12) -/

/-- REQUEST (R191): a local request takes the free slot; a malformed one draws ANSWER(BAD) and one that finds the slot or the
wait in use ANSWER(BUSY), each dropped and counted where no cell is granted; a remote one is placed as a STATUS frame and the
wait begins, or it waits for a cell. REMOTE_REQUEST_PLACED (R191): one that waited is placed and the wait begins, or it goes
on waiting. REMOTE_WAIT_EXPIRY (R195): a wait that ends without a reply draws ANSWER(TIMEOUT), or is counted as not sent.
R200: a remote request goes with the section set 0 where the command does not use it; that it has no bits but those of the
nine sections is the model's reading (log 63). -/
def Obligations.RequestsAndRemoteRequests : Prop :=
  (∀ body : List Byte,
    let set := wordAt body 2
    let code := (byteAt body 1).toNat
    let formed := body.length = 4 ∧ (byteAt body 0).toNat ≤ 63 ∧ 1 ≤ code ∧ code ≤ 4 ∧
      (code = 1 → ∃ i, i < 9 ∧ set.getLsbD i = true)
    (¬ formed → readRequest body = none) ∧
    (formed → readRequest body = some ((byteAt body 0).extractLsb' 0 6,
      if code = 1 then .read ((List.range 9).filter (fun i => set.getLsbD i))
      else if code = 2 then .clearAlerts else if code = 3 then .clearCounters else .serviceRestart))) ∧
  (∀ (s : State) (chars : List LinkChar) (tag : Byte) (body : List Byte), Hears .service chars (.message 0x31 tag body) s →
     let h := s.hunting .service
     let answered (r : Result) (k : StationCounter) : Prop :=
       ∃ t, exec (.request chars) s = .next t ∧
         (s.grants .ordinaryOut = true → AnswerQueued s.image.address tag r h t ∧ Counts [.station k] s t) ∧
         (s.grants .ordinaryOut = false → t.store = s.store ∧ t.links = h.links ∧
           Counts [.station k, .refusals .ordinaryOut, .station .statusNotSent] s t) ∧
         t = { s with store := t.store, links := t.links, counters := t.counters }
     (readRequest body = none → answered .bad .statusBad) ∧
     ∀ target command, readRequest body = some (target, command) →
       (s.maint.slot ≠ none ∨ s.maint.wait ≠ none → answered .busy .statusBusy) ∧
       (s.maint.slot = none → s.maint.wait = none →
         ((target = 0 ∨ target = s.image.address) →
           ∃ t, exec (.request chars) s = .next t ∧
             t = { h with maint := { s.maint with
               slot := some { command := command, requester := .serviceLink, tag := tag, stage := .taken } } }) ∧
         (target ≠ 0 → target ≠ s.image.address →
           let set : Word := if byteAt body 1 = 1 then wordAt body 2 &&& 0x01FF else 0
           let sent : List Byte := [byteAt body 0, byteAt body 1, set.extractLsb' 8 8, set.extractLsb' 0 8]
           ∃ t, exec (.request chars) s = .next t ∧
             (s.grants .ordinaryOut = true →
               JoinsClass2 (localFrame s .status target false tag s.seqs.status (1 :: sent)) s t ∧
               t.seqs = { s.seqs with status := s.seqs.status + 1 } ∧
               t.maint = { s.maint with
                 wait := some { target := target, tag := tag, timer := Timer.arm s.image.statusTimeout } } ∧
               t.counters = s.counters) ∧
             (s.grants .ordinaryOut = false →
               t.queues = s.queues ∧ t.store = s.store ∧ t.seqs = s.seqs ∧ Counts [.refusals .ordinaryOut] s t ∧
               t.maint = { s.maint with
                 slot := some
                   { command := command, requester := .serviceLink, tag := tag, stage := .remote target sent } }) ∧
             t = { h with
               maint := t.maint, queues := t.queues, holdback := t.holdback, store := t.store, seqs := t.seqs
               counters := t.counters }))) ∧
  ∀ s : State, s.start = .running →
    (∀ j, s.maint.slot = some j → ∀ target body, j.stage = .remote target body →
      (s.grants .ordinaryOut = true →
        ∃ t, exec .remoteRequestPlaced s = .next t ∧
          JoinsClass2 (localFrame s .status target false j.tag s.seqs.status (1 :: body)) s t ∧
          t.seqs = { s.seqs with status := s.seqs.status + 1 } ∧
          t.maint = { s.maint with
            slot := none, wait := some { target := target, tag := j.tag, timer := Timer.arm s.image.statusTimeout } } ∧
          t = { s with maint := t.maint, queues := t.queues, holdback := t.holdback, store := t.store, seqs := t.seqs }) ∧
      (s.grants .ordinaryOut = false →
        ∃ t, exec .remoteRequestPlaced s = .next t ∧ Counts [.refusals .ordinaryOut] s t ∧
          t = { s with counters := t.counters })) ∧
    ∀ w, s.maint.wait = some w → w.timer.due = true →
      ∃ t, exec .remoteWaitExpiry s = .next t ∧ t.maint = { s.maint with wait := none } ∧
        (s.grants .ordinaryOut = true →
          AnswerQueued w.target w.tag .timeout s t ∧ Counts [.station .statusTimeouts] s t) ∧
        (s.grants .ordinaryOut = false → t.links = s.links ∧ t.store = s.store ∧
          Counts [.station .statusTimeouts, .refusals .ordinaryOut, .station .statusNotSent] s t) ∧
        t = { s with maint := t.maint, store := t.store, links := t.links, counters := t.counters }

/-- R192, what the Maintenance Unit makes of a STATUS frame that is copied. A request is refused unless its source is the
configured maintenance address, it is well formed and the slot is free; it then takes the slot with its source as requester. A
reply is refused unless it comes from the target of the wait with its tag; it then takes a RECEIVE cell and goes to the SERVICE
link as a REPLY or ANSWER; the wait's timer is armed again, or an ANSWER or a part marked last of reply ends the wait. That a
payload of neither type of reply is taken as a request is the model's choice (log 21). -/
def Obligations.StatusFrames : Prop :=
  ∀ (s : State) (f : Frame),
    let x := s.statusCopy f
    let p := f.payload
    let type_ := byteAt p 0
    let reply := p ≠ [] ∧ (type_ = 2 ∨ type_ = 3)
    let allowed := s.image.maintenance ≠ 0 ∧ f.source = s.image.maintenance
    let formed := type_ = 1 ∧ readRequest (p.drop 1) ≠ none
    let refused (cs : List Counter) : Prop := x.1 = false ∧ Counts cs s x.2 ∧ x.2 = { s with counters := x.2.counters }
    let matches_ (w : RemoteWait) : Prop := s.maint.wait = some w ∧ w.target = f.source ∧ w.tag = f.tag
    (¬ reply →
      (¬ allowed → refused [.station .statusRefused]) ∧
      (allowed → ¬ formed → refused [.station .statusBad]) ∧
      (allowed → formed → s.maint.slot ≠ none → refused [.station .statusBusy]) ∧
      ∀ target command, allowed → type_ = 1 → readRequest (p.drop 1) = some (target, command) → s.maint.slot = none →
        x = (true, { s with maint := { s.maint with
          slot := some { command := command, requester := .station f.source, tag := f.tag, stage := .taken } } })) ∧
    (reply →
      ((∀ w, ¬ matches_ w) → refused [.station .statusStray]) ∧
      ∀ w, matches_ w →
        (s.grants .receive = false → refused [.refusals .receive]) ∧
        ∀ n st, s.store.request .receive = some (n, st) →
          x.1 = true ∧
          Queued .service
            { kind := if type_ = 3 then 0x33 else 0x32, body := p.drop 1, holder := .cell .receive n } s x.2 ∧
          x.2.maint = { s.maint with
            wait := if type_ = 3 ∨ (byteAt p 4).getLsbD 1 = true then none
              else some { w with timer := Timer.arm s.image.statusTimeout } } ∧
          x.2 = { s with store := st, maint := x.2.maint, links := x.2.links })

/-- CLEAR_ALERTS and CLEAR_COUNTERS (R194, R197, R85), READ and REPLY_PART_RESUME (R193, R194), for a requester on the
SERVICE link, which is sent messages, or at a station, which is sent STATUS reply frames: the latches, or the counters, are
cleared and ANSWER(TAKEN) follows. A READ gives one part of at most 220 bytes after another, section by section in order,
each built at that moment with the Timebase as its stamp and marked last of section and last of reply; a job that finds no
cell stays in the slot and goes on when it is resumed. A section that the station's roles give no content is one empty
part. The model's choices: how a section's content is laid out and cut into parts (log 9); CONDITIONS has no content at weather
role NONE (log 49), and JOURNAL none at toll role NONE, though it keeps entries (log 55); a section that has shrunk while the
job waited ends with an empty part (log 57). -/
def Obligations.MaintenanceJobs : Prop :=
  ∀ (s : State) (j : Job), s.start = .running → s.maint.slot = some j → s.store.free.length ≤ 256 →
    let sends (tag kind type_ : Byte) (body : List Byte) (n : Nat) (a b : State) : Prop :=
      match j.requester with
      | .serviceLink =>
        Queued .service { kind := kind, body := body, holder := .cell .ordinaryOut n } a b ∧
          b = { a with links := b.links }
      | .station d =>
        b.queues = { a.queues with
          localClass2 := a.queues.localClass2 ++
            [{ frame := localFrame a .status d false tag a.seqs.status (type_ :: body), cell := n, user := .ordinaryOut }] } ∧
          b.seqs = { a.seqs with status := a.seqs.status + 1 } ∧
          b = { a with queues := b.queues, holdback := b.holdback, seqs := b.seqs }
    let answers (r : Result) (n : Nat) (a b : State) : Prop :=
      sends j.tag 0x33 3 [s.image.address.setWidth 8, j.tag, BitVec.ofNat 8 r.code] n a b
    let ends (b : State) : State := { b with maint := { s.maint with slot := none } }
    let paused (c : Instr) (j' : Job) : Prop :=
      ∃ t, exec c s = .next t ∧ Counts [.refusals .ordinaryOut] s t ∧
        t = { s with maint := { s.maint with slot := some j' }, counters := t.counters }
    (j.command = .clearAlerts → j.stage = .taken →
      ∃ a : State, (∀ e, (a.alert e).latched = false) ∧
        (Table.wf Alert.ctorIdx {} s.alerts = true → ∀ e, (a.alert e).time = (s.alert e).time) ∧
        a = { s with alerts := a.alerts } ∧
        (∀ n st, s.store.request .ordinaryOut = some (n, st) →
          ∃ b, answers .taken n { a with store := st } b ∧ exec .clearAlerts s = .next (ends b)) ∧
        (s.grants .ordinaryOut = false → ∃ t, exec .clearAlerts s = .next t ∧ Counts [.refusals .ordinaryOut] s t ∧
          t = { a with
            maint := { s.maint with slot := some { j with stage := .answering .taken } }, counters := t.counters })) ∧
    (j.command = .clearCounters → j.stage = .taken →
      ∃ a : State, a.counters = [] ∧ (∀ u, a.store.users.get u = { s.store.users.get u with peak := (s.store.users.get u).count }) ∧
        a.store.free = s.store.free ∧ a.store.origin = s.store.origin ∧
        a = { s with counters := a.counters, store := a.store } ∧
        (∀ n st, a.store.request .ordinaryOut = some (n, st) →
          ∃ b, answers .taken n { a with store := st } b ∧ exec .clearCounters s = .next (ends b)) ∧
        (s.grants .ordinaryOut = false → ∃ t, exec .clearCounters s = .next t ∧
          (∀ c, t.counter c = if c = .refusals .ordinaryOut then 1 else 0) ∧
          t = { a with
            maint := { s.maint with slot := some { j with stage := .answering .taken } }, counters := t.counters })) ∧
    (∀ (c : Instr) (x : Nat) (rest : List Nat) (k : Nat), j.command = .read (x :: rest) →
      (c = .read ∧ j.stage = .taken ∧ k = 0) ∨ (c = .replyPartResume ∧ j.stage = .reading k) →
      (s.grants .ordinaryOut = false → paused c { j with stage := .reading k }) ∧
      ∀ n st, s.store.request .ordinaryOut = some (n, st) →
        let content := State.sectionContent x { s with store := st }
        let last : Bool := decide (content.length ≤ 220 * (k + 1))
        let flags := (if last then 1 else 0) + (if last && rest.isEmpty then 2 else 0)
        ∃ a b,
          sends j.tag 0x32 2
            ([s.image.address.setWidth 8, BitVec.ofNat 8 x, BitVec.ofNat 8 k, BitVec.ofNat 8 flags,
              s.timebase.extractLsb' 16 8, s.timebase.extractLsb' 8 8, s.timebase.extractLsb' 0 8] ++
              (content.drop (220 * k)).take 220) n { s with store := st } a ∧
          Counts [.station .replyParts] a b ∧ b = { a with counters := b.counters } ∧
          (last = true → rest = [] → exec c s = .next (ends b)) ∧
          (last = true → rest ≠ [] → exec c s = exec .replyPartResume { b with
            maint := { s.maint with slot := some { j with command := .read rest, stage := .reading 0 } } }) ∧
          (last = false → exec c s = exec .replyPartResume { b with
            maint := { s.maint with slot := some { j with stage := .reading (k + 1) } } })) ∧
    (∀ r, j.stage = .answering r →
      (s.grants .ordinaryOut = false → paused .replyPartResume j) ∧
      ∀ n st, s.store.request .ordinaryOut = some (n, st) →
        ∃ b, answers r n { s with store := st } b ∧ exec .replyPartResume s = .next (ends b)) ∧
    (s.image.roles.toll = .none → State.sectionContent 3 s = []) ∧
    (s.image.roles.phone = .none → State.sectionContent 4 s = []) ∧
    (s.image.roles.sign = .none → State.sectionContent 5 s = []) ∧
    (s.image.roles.weather = .none → State.sectionContent 6 s = [])

/-! ## Encodings (chapter 13) -/

/-- R18, R29, R201, 13.2: the symbols of a frame on the line are FRAME_START, the 9 header bytes, the payload and its CRC
when there is one, and FRAME_END, those of a span word SPAN_START, its two bytes and the check; the header that a port sends
for a frame is read back as that frame and its length, with no correction. R20: the header check code corrects every single
flipped bit and finds every two. R17 to R25: what a port sends, a port that is HUNTING receives as the same frame or span
word. -/
def Obligations.HeaderEncoding : Prop :=
  (∀ f : Frame, f.source ≠ 0 → f.fold ≤ 2 → f.hops ≤ 255 → f.payload.length ≤ 232 →
    readHeader (frameHeader f) = .passes { f with payload := [], crc := 0 } f.payload.length false) ∧
  (∀ (fields : BitVec 64) (n m : Nat), n < 72 → m < 72 → n ≠ m →
    checkHeader (codeHeader fields) = .clean fields ∧
    checkHeader (codeHeader fields ^^^ (1 <<< n)) = .corrected fields ∧
    checkHeader (codeHeader fields ^^^ (1 <<< n) ^^^ (1 <<< m)) = .uncorrectable) ∧
  (∀ f : Frame, ∃ header crc : List Byte, header.length = 9 ∧ crc.length = (if f.payload = [] then 0 else 4) ∧
    (∀ k, k < 9 → byteAt header k = (frameHeader f).extractLsb' (8 * (8 - k)) 8) ∧
    (f.payload ≠ [] → ∀ k, k < 4 → byteAt crc k = f.crc.extractLsb' (8 * (3 - k)) 8) ∧
    Frame.line f = [.frameStart] ++ (header ++ f.payload ++ crc).map Symbol.data ++ [.frameEnd] ∧
    (Frame.line f).length = if f.payload = [] then 11 else f.payload.length + 15) ∧
  (∀ content : Word, ∃ check : Byte,
    spanLine content = [.spanStart, .data (content.extractLsb' 8 8), .data (content.extractLsb' 0 8), .data check] ∧
    check = spanCheck content) ∧
  ∀ (s : State) (p : Port), s.awake = true → Pins.signal p s.pins = true → (s.port p).rx = .hunting →
    (∀ f : Frame, f.source ≠ 0 → f.fold ≤ 2 → f.hops ≤ 255 → f.payload.length ≤ 232 →
      s.received p ((Frame.line f).map some) =
        some (.frame { f with payload := [], crc := 0 } false f.payload (if f.payload = [] then 0 else f.crc), s)) ∧
    ∀ sender st fault,
      s.received p ((spanLine (spanContent sender st fault)).map some) = some (.spanWord sender st fault, s)

/-! ## What every step keeps -/

/-- R76, R78, R79: every step keeps the shares and the account of the cells: each user's count is the number of cells it
holds, no cell is held twice or held and free, and the cells held and the free cells number 256. -/
def Obligations.StepsKeepTheCells : Prop :=
  (∀ s t : State, s.store.SharesKept → step s = .next t → t.store.SharesKept) ∧
  ∀ s t : State, s.CellsConserved → step s = .next t → t.CellsConserved

/-- R128: every step keeps the call table and the waiting list sound, and the list in arrival order, for as long as no call
that it holds or a channel is offered is 32768 calls old: `base` is any arrival number that none of them comes before. -/
def Obligations.StepsKeepTheSwitchboard : Prop :=
  (∀ s t : State, s.switchboard.Sound → step s = .next t → t.switchboard.Sound) ∧
  ∀ (s t : State) (base : Word), s.switchboard.InOrder base → step s = .next t →
    (t.switchboard.arrival - base).toNat ≤ 32767 → t.switchboard.InOrder base

/-- R69, R143, R145, R146: every step keeps the bounds of the return list and of the journal, and the match of IN_FLIGHT
entries with TOLL entries of the return list, with a due park turn naming an entry held PARKED. -/
def Obligations.StepsKeepTheJournal : Prop :=
  (∀ s t : State, ReturnsBounded s.returns → step s = .next t → ReturnsBounded t.returns) ∧
  (∀ s t : State, s.journal.Bounded → step s = .next t → t.journal.Bounded) ∧
  ∀ s t : State, s.AttemptsMatched → step s = .next t → t.AttemptsMatched

/-- R19 to R21, R26, R30 to R33, R44, R46, R47, R49: every step keeps the ports' scores and error states, the receivers with
an unfinished item, or HUNTING where no symbols come, and, with such receivers, the folded sides empty of frames. -/
def Obligations.StepsKeepTheFolds : Prop :=
  (∀ s t : State, s.west.Sound → s.east.Sound → step s = .next t → t.west.Sound ∧ t.east.Sound) ∧
  (∀ s t : State, s.ReceiversSound → step s = .next t → t.ReceiversSound) ∧
  ∀ s t : State, s.ReceiversSound → s.FoldsQuiet → step s = .next t → t.FoldsQuiet

/-- R88, R92, R98, R122, R168, R170, R6: every step keeps the holdback list, the levels, the waiting announcements and the
slots in their bounds, the station itself out of its Peer Table, and a TRANSPARENT station silent. -/
def Obligations.StepsKeepTheTables : Prop :=
  (∀ s t : State, s.holdback.Bounded s.image.address → step s = .next t → t.holdback.Bounded t.image.address) ∧
  (∀ s t : State, s.weather.LevelsSound → step s = .next t → t.weather.LevelsSound) ∧
  (∀ s t : State, s.queues.OneAnnouncement → step s = .next t → t.queues.OneAnnouncement) ∧
  (∀ s t : State, (∀ p, (s.voice p).slot.Sound) → step s = .next t → ∀ p, (t.voice p).slot.Sound) ∧
  (∀ s t : State, (s.peer s.image.address).state = .absent → step s = .next t →
    (t.peer t.image.address).state = .absent) ∧
  ∀ s t : State, s.TransparentQuiet → step s = .next t → t.TransparentQuiet
end

