-- ==== Sys2Proof/Laws/State.lean ====
section
/-! SUPPORT. What each update of one part of the state leaves of each field: one lemma per field per update. -/

namespace Sys2Proof.Machine

section

variable (f : StartState → StartState) (s : State)

@[simp] theorem State.modStart_start : (s.modStart f).start = f s.start := rfl
@[simp] theorem State.modStart_loader : (s.modStart f).loader = s.loader := rfl
@[simp] theorem State.modStart_image : (s.modStart f).image = s.image := rfl
@[simp] theorem State.modStart_timebase : (s.modStart f).timebase = s.timebase := rfl
@[simp] theorem State.modStart_pins : (s.modStart f).pins = s.pins := rfl
@[simp] theorem State.modStart_west : (s.modStart f).west = s.west := rfl
@[simp] theorem State.modStart_east : (s.modStart f).east = s.east := rfl
@[simp] theorem State.modStart_queues : (s.modStart f).queues = s.queues := rfl
@[simp] theorem State.modStart_returns : (s.modStart f).returns = s.returns := rfl
@[simp] theorem State.modStart_seqs : (s.modStart f).seqs = s.seqs := rfl
@[simp] theorem State.modStart_store : (s.modStart f).store = s.store := rfl
@[simp] theorem State.modStart_holdback : (s.modStart f).holdback = s.holdback := rfl
@[simp] theorem State.modStart_peers : (s.modStart f).peers = s.peers := rfl
@[simp] theorem State.modStart_phone : (s.modStart f).phone = s.phone := rfl
@[simp] theorem State.modStart_switchboard : (s.modStart f).switchboard = s.switchboard := rfl
@[simp] theorem State.modStart_journal : (s.modStart f).journal = s.journal := rfl
@[simp] theorem State.modStart_collector : (s.modStart f).collector = s.collector := rfl
@[simp] theorem State.modStart_weather : (s.modStart f).weather = s.weather := rfl
@[simp] theorem State.modStart_signs : (s.modStart f).signs = s.signs := rfl
@[simp] theorem State.modStart_maint : (s.modStart f).maint = s.maint := rfl
@[simp] theorem State.modStart_alerts : (s.modStart f).alerts = s.alerts := rfl
@[simp] theorem State.modStart_links : (s.modStart f).links = s.links := rfl
@[simp] theorem State.modStart_counters : (s.modStart f).counters = s.counters := rfl
@[simp] theorem State.modStart_pending : (s.modStart f).pending = s.pending := rfl

end

section

variable (f : Loader → Loader) (s : State)

@[simp] theorem State.modLoader_start : (s.modLoader f).start = s.start := rfl
@[simp] theorem State.modLoader_loader : (s.modLoader f).loader = f s.loader := rfl
@[simp] theorem State.modLoader_image : (s.modLoader f).image = s.image := rfl
@[simp] theorem State.modLoader_timebase : (s.modLoader f).timebase = s.timebase := rfl
@[simp] theorem State.modLoader_pins : (s.modLoader f).pins = s.pins := rfl
@[simp] theorem State.modLoader_west : (s.modLoader f).west = s.west := rfl
@[simp] theorem State.modLoader_east : (s.modLoader f).east = s.east := rfl
@[simp] theorem State.modLoader_queues : (s.modLoader f).queues = s.queues := rfl
@[simp] theorem State.modLoader_returns : (s.modLoader f).returns = s.returns := rfl
@[simp] theorem State.modLoader_seqs : (s.modLoader f).seqs = s.seqs := rfl
@[simp] theorem State.modLoader_store : (s.modLoader f).store = s.store := rfl
@[simp] theorem State.modLoader_holdback : (s.modLoader f).holdback = s.holdback := rfl
@[simp] theorem State.modLoader_peers : (s.modLoader f).peers = s.peers := rfl
@[simp] theorem State.modLoader_phone : (s.modLoader f).phone = s.phone := rfl
@[simp] theorem State.modLoader_switchboard : (s.modLoader f).switchboard = s.switchboard := rfl
@[simp] theorem State.modLoader_journal : (s.modLoader f).journal = s.journal := rfl
@[simp] theorem State.modLoader_collector : (s.modLoader f).collector = s.collector := rfl
@[simp] theorem State.modLoader_weather : (s.modLoader f).weather = s.weather := rfl
@[simp] theorem State.modLoader_signs : (s.modLoader f).signs = s.signs := rfl
@[simp] theorem State.modLoader_maint : (s.modLoader f).maint = s.maint := rfl
@[simp] theorem State.modLoader_alerts : (s.modLoader f).alerts = s.alerts := rfl
@[simp] theorem State.modLoader_links : (s.modLoader f).links = s.links := rfl
@[simp] theorem State.modLoader_counters : (s.modLoader f).counters = s.counters := rfl
@[simp] theorem State.modLoader_pending : (s.modLoader f).pending = s.pending := rfl

end

section

variable (f : Image → Image) (s : State)

@[simp] theorem State.modImage_start : (s.modImage f).start = s.start := rfl
@[simp] theorem State.modImage_loader : (s.modImage f).loader = s.loader := rfl
@[simp] theorem State.modImage_image : (s.modImage f).image = f s.image := rfl
@[simp] theorem State.modImage_timebase : (s.modImage f).timebase = s.timebase := rfl
@[simp] theorem State.modImage_pins : (s.modImage f).pins = s.pins := rfl
@[simp] theorem State.modImage_west : (s.modImage f).west = s.west := rfl
@[simp] theorem State.modImage_east : (s.modImage f).east = s.east := rfl
@[simp] theorem State.modImage_queues : (s.modImage f).queues = s.queues := rfl
@[simp] theorem State.modImage_returns : (s.modImage f).returns = s.returns := rfl
@[simp] theorem State.modImage_seqs : (s.modImage f).seqs = s.seqs := rfl
@[simp] theorem State.modImage_store : (s.modImage f).store = s.store := rfl
@[simp] theorem State.modImage_holdback : (s.modImage f).holdback = s.holdback := rfl
@[simp] theorem State.modImage_peers : (s.modImage f).peers = s.peers := rfl
@[simp] theorem State.modImage_phone : (s.modImage f).phone = s.phone := rfl
@[simp] theorem State.modImage_switchboard : (s.modImage f).switchboard = s.switchboard := rfl
@[simp] theorem State.modImage_journal : (s.modImage f).journal = s.journal := rfl
@[simp] theorem State.modImage_collector : (s.modImage f).collector = s.collector := rfl
@[simp] theorem State.modImage_weather : (s.modImage f).weather = s.weather := rfl
@[simp] theorem State.modImage_signs : (s.modImage f).signs = s.signs := rfl
@[simp] theorem State.modImage_maint : (s.modImage f).maint = s.maint := rfl
@[simp] theorem State.modImage_alerts : (s.modImage f).alerts = s.alerts := rfl
@[simp] theorem State.modImage_links : (s.modImage f).links = s.links := rfl
@[simp] theorem State.modImage_counters : (s.modImage f).counters = s.counters := rfl
@[simp] theorem State.modImage_pending : (s.modImage f).pending = s.pending := rfl

end

section

variable (f : BitVec 24 → BitVec 24) (s : State)

@[simp] theorem State.modTimebase_start : (s.modTimebase f).start = s.start := rfl
@[simp] theorem State.modTimebase_loader : (s.modTimebase f).loader = s.loader := rfl
@[simp] theorem State.modTimebase_image : (s.modTimebase f).image = s.image := rfl
@[simp] theorem State.modTimebase_timebase : (s.modTimebase f).timebase = f s.timebase := rfl
@[simp] theorem State.modTimebase_pins : (s.modTimebase f).pins = s.pins := rfl
@[simp] theorem State.modTimebase_west : (s.modTimebase f).west = s.west := rfl
@[simp] theorem State.modTimebase_east : (s.modTimebase f).east = s.east := rfl
@[simp] theorem State.modTimebase_queues : (s.modTimebase f).queues = s.queues := rfl
@[simp] theorem State.modTimebase_returns : (s.modTimebase f).returns = s.returns := rfl
@[simp] theorem State.modTimebase_seqs : (s.modTimebase f).seqs = s.seqs := rfl
@[simp] theorem State.modTimebase_store : (s.modTimebase f).store = s.store := rfl
@[simp] theorem State.modTimebase_holdback : (s.modTimebase f).holdback = s.holdback := rfl
@[simp] theorem State.modTimebase_peers : (s.modTimebase f).peers = s.peers := rfl
@[simp] theorem State.modTimebase_phone : (s.modTimebase f).phone = s.phone := rfl
@[simp] theorem State.modTimebase_switchboard : (s.modTimebase f).switchboard = s.switchboard := rfl
@[simp] theorem State.modTimebase_journal : (s.modTimebase f).journal = s.journal := rfl
@[simp] theorem State.modTimebase_collector : (s.modTimebase f).collector = s.collector := rfl
@[simp] theorem State.modTimebase_weather : (s.modTimebase f).weather = s.weather := rfl
@[simp] theorem State.modTimebase_signs : (s.modTimebase f).signs = s.signs := rfl
@[simp] theorem State.modTimebase_maint : (s.modTimebase f).maint = s.maint := rfl
@[simp] theorem State.modTimebase_alerts : (s.modTimebase f).alerts = s.alerts := rfl
@[simp] theorem State.modTimebase_links : (s.modTimebase f).links = s.links := rfl
@[simp] theorem State.modTimebase_counters : (s.modTimebase f).counters = s.counters := rfl
@[simp] theorem State.modTimebase_pending : (s.modTimebase f).pending = s.pending := rfl

end

section

variable (f : Pins → Pins) (s : State)

@[simp] theorem State.modPins_start : (s.modPins f).start = s.start := rfl
@[simp] theorem State.modPins_loader : (s.modPins f).loader = s.loader := rfl
@[simp] theorem State.modPins_image : (s.modPins f).image = s.image := rfl
@[simp] theorem State.modPins_timebase : (s.modPins f).timebase = s.timebase := rfl
@[simp] theorem State.modPins_pins : (s.modPins f).pins = f s.pins := rfl
@[simp] theorem State.modPins_west : (s.modPins f).west = s.west := rfl
@[simp] theorem State.modPins_east : (s.modPins f).east = s.east := rfl
@[simp] theorem State.modPins_queues : (s.modPins f).queues = s.queues := rfl
@[simp] theorem State.modPins_returns : (s.modPins f).returns = s.returns := rfl
@[simp] theorem State.modPins_seqs : (s.modPins f).seqs = s.seqs := rfl
@[simp] theorem State.modPins_store : (s.modPins f).store = s.store := rfl
@[simp] theorem State.modPins_holdback : (s.modPins f).holdback = s.holdback := rfl
@[simp] theorem State.modPins_peers : (s.modPins f).peers = s.peers := rfl
@[simp] theorem State.modPins_phone : (s.modPins f).phone = s.phone := rfl
@[simp] theorem State.modPins_switchboard : (s.modPins f).switchboard = s.switchboard := rfl
@[simp] theorem State.modPins_journal : (s.modPins f).journal = s.journal := rfl
@[simp] theorem State.modPins_collector : (s.modPins f).collector = s.collector := rfl
@[simp] theorem State.modPins_weather : (s.modPins f).weather = s.weather := rfl
@[simp] theorem State.modPins_signs : (s.modPins f).signs = s.signs := rfl
@[simp] theorem State.modPins_maint : (s.modPins f).maint = s.maint := rfl
@[simp] theorem State.modPins_alerts : (s.modPins f).alerts = s.alerts := rfl
@[simp] theorem State.modPins_links : (s.modPins f).links = s.links := rfl
@[simp] theorem State.modPins_counters : (s.modPins f).counters = s.counters := rfl
@[simp] theorem State.modPins_pending : (s.modPins f).pending = s.pending := rfl

end

section

variable (f : List ReturnEntry → List ReturnEntry) (s : State)

@[simp] theorem State.modReturns_start : (s.modReturns f).start = s.start := rfl
@[simp] theorem State.modReturns_loader : (s.modReturns f).loader = s.loader := rfl
@[simp] theorem State.modReturns_image : (s.modReturns f).image = s.image := rfl
@[simp] theorem State.modReturns_timebase : (s.modReturns f).timebase = s.timebase := rfl
@[simp] theorem State.modReturns_pins : (s.modReturns f).pins = s.pins := rfl
@[simp] theorem State.modReturns_west : (s.modReturns f).west = s.west := rfl
@[simp] theorem State.modReturns_east : (s.modReturns f).east = s.east := rfl
@[simp] theorem State.modReturns_queues : (s.modReturns f).queues = s.queues := rfl
@[simp] theorem State.modReturns_returns : (s.modReturns f).returns = f s.returns := rfl
@[simp] theorem State.modReturns_seqs : (s.modReturns f).seqs = s.seqs := rfl
@[simp] theorem State.modReturns_store : (s.modReturns f).store = s.store := rfl
@[simp] theorem State.modReturns_holdback : (s.modReturns f).holdback = s.holdback := rfl
@[simp] theorem State.modReturns_peers : (s.modReturns f).peers = s.peers := rfl
@[simp] theorem State.modReturns_phone : (s.modReturns f).phone = s.phone := rfl
@[simp] theorem State.modReturns_switchboard : (s.modReturns f).switchboard = s.switchboard := rfl
@[simp] theorem State.modReturns_journal : (s.modReturns f).journal = s.journal := rfl
@[simp] theorem State.modReturns_collector : (s.modReturns f).collector = s.collector := rfl
@[simp] theorem State.modReturns_weather : (s.modReturns f).weather = s.weather := rfl
@[simp] theorem State.modReturns_signs : (s.modReturns f).signs = s.signs := rfl
@[simp] theorem State.modReturns_maint : (s.modReturns f).maint = s.maint := rfl
@[simp] theorem State.modReturns_alerts : (s.modReturns f).alerts = s.alerts := rfl
@[simp] theorem State.modReturns_links : (s.modReturns f).links = s.links := rfl
@[simp] theorem State.modReturns_counters : (s.modReturns f).counters = s.counters := rfl
@[simp] theorem State.modReturns_pending : (s.modReturns f).pending = s.pending := rfl

end

section

variable (f : Seqs → Seqs) (s : State)

@[simp] theorem State.modSeqs_start : (s.modSeqs f).start = s.start := rfl
@[simp] theorem State.modSeqs_loader : (s.modSeqs f).loader = s.loader := rfl
@[simp] theorem State.modSeqs_image : (s.modSeqs f).image = s.image := rfl
@[simp] theorem State.modSeqs_timebase : (s.modSeqs f).timebase = s.timebase := rfl
@[simp] theorem State.modSeqs_pins : (s.modSeqs f).pins = s.pins := rfl
@[simp] theorem State.modSeqs_west : (s.modSeqs f).west = s.west := rfl
@[simp] theorem State.modSeqs_east : (s.modSeqs f).east = s.east := rfl
@[simp] theorem State.modSeqs_queues : (s.modSeqs f).queues = s.queues := rfl
@[simp] theorem State.modSeqs_returns : (s.modSeqs f).returns = s.returns := rfl
@[simp] theorem State.modSeqs_seqs : (s.modSeqs f).seqs = f s.seqs := rfl
@[simp] theorem State.modSeqs_store : (s.modSeqs f).store = s.store := rfl
@[simp] theorem State.modSeqs_holdback : (s.modSeqs f).holdback = s.holdback := rfl
@[simp] theorem State.modSeqs_peers : (s.modSeqs f).peers = s.peers := rfl
@[simp] theorem State.modSeqs_phone : (s.modSeqs f).phone = s.phone := rfl
@[simp] theorem State.modSeqs_switchboard : (s.modSeqs f).switchboard = s.switchboard := rfl
@[simp] theorem State.modSeqs_journal : (s.modSeqs f).journal = s.journal := rfl
@[simp] theorem State.modSeqs_collector : (s.modSeqs f).collector = s.collector := rfl
@[simp] theorem State.modSeqs_weather : (s.modSeqs f).weather = s.weather := rfl
@[simp] theorem State.modSeqs_signs : (s.modSeqs f).signs = s.signs := rfl
@[simp] theorem State.modSeqs_maint : (s.modSeqs f).maint = s.maint := rfl
@[simp] theorem State.modSeqs_alerts : (s.modSeqs f).alerts = s.alerts := rfl
@[simp] theorem State.modSeqs_links : (s.modSeqs f).links = s.links := rfl
@[simp] theorem State.modSeqs_counters : (s.modSeqs f).counters = s.counters := rfl
@[simp] theorem State.modSeqs_pending : (s.modSeqs f).pending = s.pending := rfl

end

section

variable (f : Store → Store) (s : State)

@[simp] theorem State.modStore_start : (s.modStore f).start = s.start := rfl
@[simp] theorem State.modStore_loader : (s.modStore f).loader = s.loader := rfl
@[simp] theorem State.modStore_image : (s.modStore f).image = s.image := rfl
@[simp] theorem State.modStore_timebase : (s.modStore f).timebase = s.timebase := rfl
@[simp] theorem State.modStore_pins : (s.modStore f).pins = s.pins := rfl
@[simp] theorem State.modStore_west : (s.modStore f).west = s.west := rfl
@[simp] theorem State.modStore_east : (s.modStore f).east = s.east := rfl
@[simp] theorem State.modStore_queues : (s.modStore f).queues = s.queues := rfl
@[simp] theorem State.modStore_returns : (s.modStore f).returns = s.returns := rfl
@[simp] theorem State.modStore_seqs : (s.modStore f).seqs = s.seqs := rfl
@[simp] theorem State.modStore_store : (s.modStore f).store = f s.store := rfl
@[simp] theorem State.modStore_holdback : (s.modStore f).holdback = s.holdback := rfl
@[simp] theorem State.modStore_peers : (s.modStore f).peers = s.peers := rfl
@[simp] theorem State.modStore_phone : (s.modStore f).phone = s.phone := rfl
@[simp] theorem State.modStore_switchboard : (s.modStore f).switchboard = s.switchboard := rfl
@[simp] theorem State.modStore_journal : (s.modStore f).journal = s.journal := rfl
@[simp] theorem State.modStore_collector : (s.modStore f).collector = s.collector := rfl
@[simp] theorem State.modStore_weather : (s.modStore f).weather = s.weather := rfl
@[simp] theorem State.modStore_signs : (s.modStore f).signs = s.signs := rfl
@[simp] theorem State.modStore_maint : (s.modStore f).maint = s.maint := rfl
@[simp] theorem State.modStore_alerts : (s.modStore f).alerts = s.alerts := rfl
@[simp] theorem State.modStore_links : (s.modStore f).links = s.links := rfl
@[simp] theorem State.modStore_counters : (s.modStore f).counters = s.counters := rfl
@[simp] theorem State.modStore_pending : (s.modStore f).pending = s.pending := rfl

end

section

variable (f : Holdback → Holdback) (s : State)

@[simp] theorem State.modHoldback_start : (s.modHoldback f).start = s.start := rfl
@[simp] theorem State.modHoldback_loader : (s.modHoldback f).loader = s.loader := rfl
@[simp] theorem State.modHoldback_image : (s.modHoldback f).image = s.image := rfl
@[simp] theorem State.modHoldback_timebase : (s.modHoldback f).timebase = s.timebase := rfl
@[simp] theorem State.modHoldback_pins : (s.modHoldback f).pins = s.pins := rfl
@[simp] theorem State.modHoldback_west : (s.modHoldback f).west = s.west := rfl
@[simp] theorem State.modHoldback_east : (s.modHoldback f).east = s.east := rfl
@[simp] theorem State.modHoldback_queues : (s.modHoldback f).queues = s.queues := rfl
@[simp] theorem State.modHoldback_returns : (s.modHoldback f).returns = s.returns := rfl
@[simp] theorem State.modHoldback_seqs : (s.modHoldback f).seqs = s.seqs := rfl
@[simp] theorem State.modHoldback_store : (s.modHoldback f).store = s.store := rfl
@[simp] theorem State.modHoldback_holdback : (s.modHoldback f).holdback = f s.holdback := rfl
@[simp] theorem State.modHoldback_peers : (s.modHoldback f).peers = s.peers := rfl
@[simp] theorem State.modHoldback_phone : (s.modHoldback f).phone = s.phone := rfl
@[simp] theorem State.modHoldback_switchboard : (s.modHoldback f).switchboard = s.switchboard := rfl
@[simp] theorem State.modHoldback_journal : (s.modHoldback f).journal = s.journal := rfl
@[simp] theorem State.modHoldback_collector : (s.modHoldback f).collector = s.collector := rfl
@[simp] theorem State.modHoldback_weather : (s.modHoldback f).weather = s.weather := rfl
@[simp] theorem State.modHoldback_signs : (s.modHoldback f).signs = s.signs := rfl
@[simp] theorem State.modHoldback_maint : (s.modHoldback f).maint = s.maint := rfl
@[simp] theorem State.modHoldback_alerts : (s.modHoldback f).alerts = s.alerts := rfl
@[simp] theorem State.modHoldback_links : (s.modHoldback f).links = s.links := rfl
@[simp] theorem State.modHoldback_counters : (s.modHoldback f).counters = s.counters := rfl
@[simp] theorem State.modHoldback_pending : (s.modHoldback f).pending = s.pending := rfl

end

section

variable (f : Peers → Peers) (s : State)

@[simp] theorem State.modPeers_start : (s.modPeers f).start = s.start := rfl
@[simp] theorem State.modPeers_loader : (s.modPeers f).loader = s.loader := rfl
@[simp] theorem State.modPeers_image : (s.modPeers f).image = s.image := rfl
@[simp] theorem State.modPeers_timebase : (s.modPeers f).timebase = s.timebase := rfl
@[simp] theorem State.modPeers_pins : (s.modPeers f).pins = s.pins := rfl
@[simp] theorem State.modPeers_west : (s.modPeers f).west = s.west := rfl
@[simp] theorem State.modPeers_east : (s.modPeers f).east = s.east := rfl
@[simp] theorem State.modPeers_queues : (s.modPeers f).queues = s.queues := rfl
@[simp] theorem State.modPeers_returns : (s.modPeers f).returns = s.returns := rfl
@[simp] theorem State.modPeers_seqs : (s.modPeers f).seqs = s.seqs := rfl
@[simp] theorem State.modPeers_store : (s.modPeers f).store = s.store := rfl
@[simp] theorem State.modPeers_holdback : (s.modPeers f).holdback = s.holdback := rfl
@[simp] theorem State.modPeers_peers : (s.modPeers f).peers = f s.peers := rfl
@[simp] theorem State.modPeers_phone : (s.modPeers f).phone = s.phone := rfl
@[simp] theorem State.modPeers_switchboard : (s.modPeers f).switchboard = s.switchboard := rfl
@[simp] theorem State.modPeers_journal : (s.modPeers f).journal = s.journal := rfl
@[simp] theorem State.modPeers_collector : (s.modPeers f).collector = s.collector := rfl
@[simp] theorem State.modPeers_weather : (s.modPeers f).weather = s.weather := rfl
@[simp] theorem State.modPeers_signs : (s.modPeers f).signs = s.signs := rfl
@[simp] theorem State.modPeers_maint : (s.modPeers f).maint = s.maint := rfl
@[simp] theorem State.modPeers_alerts : (s.modPeers f).alerts = s.alerts := rfl
@[simp] theorem State.modPeers_links : (s.modPeers f).links = s.links := rfl
@[simp] theorem State.modPeers_counters : (s.modPeers f).counters = s.counters := rfl
@[simp] theorem State.modPeers_pending : (s.modPeers f).pending = s.pending := rfl

end

section

variable (f : Phone → Phone) (s : State)

@[simp] theorem State.modPhone_start : (s.modPhone f).start = s.start := rfl
@[simp] theorem State.modPhone_loader : (s.modPhone f).loader = s.loader := rfl
@[simp] theorem State.modPhone_image : (s.modPhone f).image = s.image := rfl
@[simp] theorem State.modPhone_timebase : (s.modPhone f).timebase = s.timebase := rfl
@[simp] theorem State.modPhone_pins : (s.modPhone f).pins = s.pins := rfl
@[simp] theorem State.modPhone_west : (s.modPhone f).west = s.west := rfl
@[simp] theorem State.modPhone_east : (s.modPhone f).east = s.east := rfl
@[simp] theorem State.modPhone_queues : (s.modPhone f).queues = s.queues := rfl
@[simp] theorem State.modPhone_returns : (s.modPhone f).returns = s.returns := rfl
@[simp] theorem State.modPhone_seqs : (s.modPhone f).seqs = s.seqs := rfl
@[simp] theorem State.modPhone_store : (s.modPhone f).store = s.store := rfl
@[simp] theorem State.modPhone_holdback : (s.modPhone f).holdback = s.holdback := rfl
@[simp] theorem State.modPhone_peers : (s.modPhone f).peers = s.peers := rfl
@[simp] theorem State.modPhone_phone : (s.modPhone f).phone = f s.phone := rfl
@[simp] theorem State.modPhone_switchboard : (s.modPhone f).switchboard = s.switchboard := rfl
@[simp] theorem State.modPhone_journal : (s.modPhone f).journal = s.journal := rfl
@[simp] theorem State.modPhone_collector : (s.modPhone f).collector = s.collector := rfl
@[simp] theorem State.modPhone_weather : (s.modPhone f).weather = s.weather := rfl
@[simp] theorem State.modPhone_signs : (s.modPhone f).signs = s.signs := rfl
@[simp] theorem State.modPhone_maint : (s.modPhone f).maint = s.maint := rfl
@[simp] theorem State.modPhone_alerts : (s.modPhone f).alerts = s.alerts := rfl
@[simp] theorem State.modPhone_links : (s.modPhone f).links = s.links := rfl
@[simp] theorem State.modPhone_counters : (s.modPhone f).counters = s.counters := rfl
@[simp] theorem State.modPhone_pending : (s.modPhone f).pending = s.pending := rfl

end

section

variable (f : Switchboard → Switchboard) (s : State)

@[simp] theorem State.modSwitchboard_start : (s.modSwitchboard f).start = s.start := rfl
@[simp] theorem State.modSwitchboard_loader : (s.modSwitchboard f).loader = s.loader := rfl
@[simp] theorem State.modSwitchboard_image : (s.modSwitchboard f).image = s.image := rfl
@[simp] theorem State.modSwitchboard_timebase : (s.modSwitchboard f).timebase = s.timebase := rfl
@[simp] theorem State.modSwitchboard_pins : (s.modSwitchboard f).pins = s.pins := rfl
@[simp] theorem State.modSwitchboard_west : (s.modSwitchboard f).west = s.west := rfl
@[simp] theorem State.modSwitchboard_east : (s.modSwitchboard f).east = s.east := rfl
@[simp] theorem State.modSwitchboard_queues : (s.modSwitchboard f).queues = s.queues := rfl
@[simp] theorem State.modSwitchboard_returns : (s.modSwitchboard f).returns = s.returns := rfl
@[simp] theorem State.modSwitchboard_seqs : (s.modSwitchboard f).seqs = s.seqs := rfl
@[simp] theorem State.modSwitchboard_store : (s.modSwitchboard f).store = s.store := rfl
@[simp] theorem State.modSwitchboard_holdback : (s.modSwitchboard f).holdback = s.holdback := rfl
@[simp] theorem State.modSwitchboard_peers : (s.modSwitchboard f).peers = s.peers := rfl
@[simp] theorem State.modSwitchboard_phone : (s.modSwitchboard f).phone = s.phone := rfl
@[simp] theorem State.modSwitchboard_switchboard : (s.modSwitchboard f).switchboard = f s.switchboard := rfl
@[simp] theorem State.modSwitchboard_journal : (s.modSwitchboard f).journal = s.journal := rfl
@[simp] theorem State.modSwitchboard_collector : (s.modSwitchboard f).collector = s.collector := rfl
@[simp] theorem State.modSwitchboard_weather : (s.modSwitchboard f).weather = s.weather := rfl
@[simp] theorem State.modSwitchboard_signs : (s.modSwitchboard f).signs = s.signs := rfl
@[simp] theorem State.modSwitchboard_maint : (s.modSwitchboard f).maint = s.maint := rfl
@[simp] theorem State.modSwitchboard_alerts : (s.modSwitchboard f).alerts = s.alerts := rfl
@[simp] theorem State.modSwitchboard_links : (s.modSwitchboard f).links = s.links := rfl
@[simp] theorem State.modSwitchboard_counters : (s.modSwitchboard f).counters = s.counters := rfl
@[simp] theorem State.modSwitchboard_pending : (s.modSwitchboard f).pending = s.pending := rfl

end

section

variable (f : Journal → Journal) (s : State)

@[simp] theorem State.modJournal_start : (s.modJournal f).start = s.start := rfl
@[simp] theorem State.modJournal_loader : (s.modJournal f).loader = s.loader := rfl
@[simp] theorem State.modJournal_image : (s.modJournal f).image = s.image := rfl
@[simp] theorem State.modJournal_timebase : (s.modJournal f).timebase = s.timebase := rfl
@[simp] theorem State.modJournal_pins : (s.modJournal f).pins = s.pins := rfl
@[simp] theorem State.modJournal_west : (s.modJournal f).west = s.west := rfl
@[simp] theorem State.modJournal_east : (s.modJournal f).east = s.east := rfl
@[simp] theorem State.modJournal_queues : (s.modJournal f).queues = s.queues := rfl
@[simp] theorem State.modJournal_returns : (s.modJournal f).returns = s.returns := rfl
@[simp] theorem State.modJournal_seqs : (s.modJournal f).seqs = s.seqs := rfl
@[simp] theorem State.modJournal_store : (s.modJournal f).store = s.store := rfl
@[simp] theorem State.modJournal_holdback : (s.modJournal f).holdback = s.holdback := rfl
@[simp] theorem State.modJournal_peers : (s.modJournal f).peers = s.peers := rfl
@[simp] theorem State.modJournal_phone : (s.modJournal f).phone = s.phone := rfl
@[simp] theorem State.modJournal_switchboard : (s.modJournal f).switchboard = s.switchboard := rfl
@[simp] theorem State.modJournal_journal : (s.modJournal f).journal = f s.journal := rfl
@[simp] theorem State.modJournal_collector : (s.modJournal f).collector = s.collector := rfl
@[simp] theorem State.modJournal_weather : (s.modJournal f).weather = s.weather := rfl
@[simp] theorem State.modJournal_signs : (s.modJournal f).signs = s.signs := rfl
@[simp] theorem State.modJournal_maint : (s.modJournal f).maint = s.maint := rfl
@[simp] theorem State.modJournal_alerts : (s.modJournal f).alerts = s.alerts := rfl
@[simp] theorem State.modJournal_links : (s.modJournal f).links = s.links := rfl
@[simp] theorem State.modJournal_counters : (s.modJournal f).counters = s.counters := rfl
@[simp] theorem State.modJournal_pending : (s.modJournal f).pending = s.pending := rfl

end

section

variable (f : Collector → Collector) (s : State)

@[simp] theorem State.modCollector_start : (s.modCollector f).start = s.start := rfl
@[simp] theorem State.modCollector_loader : (s.modCollector f).loader = s.loader := rfl
@[simp] theorem State.modCollector_image : (s.modCollector f).image = s.image := rfl
@[simp] theorem State.modCollector_timebase : (s.modCollector f).timebase = s.timebase := rfl
@[simp] theorem State.modCollector_pins : (s.modCollector f).pins = s.pins := rfl
@[simp] theorem State.modCollector_west : (s.modCollector f).west = s.west := rfl
@[simp] theorem State.modCollector_east : (s.modCollector f).east = s.east := rfl
@[simp] theorem State.modCollector_queues : (s.modCollector f).queues = s.queues := rfl
@[simp] theorem State.modCollector_returns : (s.modCollector f).returns = s.returns := rfl
@[simp] theorem State.modCollector_seqs : (s.modCollector f).seqs = s.seqs := rfl
@[simp] theorem State.modCollector_store : (s.modCollector f).store = s.store := rfl
@[simp] theorem State.modCollector_holdback : (s.modCollector f).holdback = s.holdback := rfl
@[simp] theorem State.modCollector_peers : (s.modCollector f).peers = s.peers := rfl
@[simp] theorem State.modCollector_phone : (s.modCollector f).phone = s.phone := rfl
@[simp] theorem State.modCollector_switchboard : (s.modCollector f).switchboard = s.switchboard := rfl
@[simp] theorem State.modCollector_journal : (s.modCollector f).journal = s.journal := rfl
@[simp] theorem State.modCollector_collector : (s.modCollector f).collector = f s.collector := rfl
@[simp] theorem State.modCollector_weather : (s.modCollector f).weather = s.weather := rfl
@[simp] theorem State.modCollector_signs : (s.modCollector f).signs = s.signs := rfl
@[simp] theorem State.modCollector_maint : (s.modCollector f).maint = s.maint := rfl
@[simp] theorem State.modCollector_alerts : (s.modCollector f).alerts = s.alerts := rfl
@[simp] theorem State.modCollector_links : (s.modCollector f).links = s.links := rfl
@[simp] theorem State.modCollector_counters : (s.modCollector f).counters = s.counters := rfl
@[simp] theorem State.modCollector_pending : (s.modCollector f).pending = s.pending := rfl

end

section

variable (f : Weather → Weather) (s : State)

@[simp] theorem State.modWeather_start : (s.modWeather f).start = s.start := rfl
@[simp] theorem State.modWeather_loader : (s.modWeather f).loader = s.loader := rfl
@[simp] theorem State.modWeather_image : (s.modWeather f).image = s.image := rfl
@[simp] theorem State.modWeather_timebase : (s.modWeather f).timebase = s.timebase := rfl
@[simp] theorem State.modWeather_pins : (s.modWeather f).pins = s.pins := rfl
@[simp] theorem State.modWeather_west : (s.modWeather f).west = s.west := rfl
@[simp] theorem State.modWeather_east : (s.modWeather f).east = s.east := rfl
@[simp] theorem State.modWeather_queues : (s.modWeather f).queues = s.queues := rfl
@[simp] theorem State.modWeather_returns : (s.modWeather f).returns = s.returns := rfl
@[simp] theorem State.modWeather_seqs : (s.modWeather f).seqs = s.seqs := rfl
@[simp] theorem State.modWeather_store : (s.modWeather f).store = s.store := rfl
@[simp] theorem State.modWeather_holdback : (s.modWeather f).holdback = s.holdback := rfl
@[simp] theorem State.modWeather_peers : (s.modWeather f).peers = s.peers := rfl
@[simp] theorem State.modWeather_phone : (s.modWeather f).phone = s.phone := rfl
@[simp] theorem State.modWeather_switchboard : (s.modWeather f).switchboard = s.switchboard := rfl
@[simp] theorem State.modWeather_journal : (s.modWeather f).journal = s.journal := rfl
@[simp] theorem State.modWeather_collector : (s.modWeather f).collector = s.collector := rfl
@[simp] theorem State.modWeather_weather : (s.modWeather f).weather = f s.weather := rfl
@[simp] theorem State.modWeather_signs : (s.modWeather f).signs = s.signs := rfl
@[simp] theorem State.modWeather_maint : (s.modWeather f).maint = s.maint := rfl
@[simp] theorem State.modWeather_alerts : (s.modWeather f).alerts = s.alerts := rfl
@[simp] theorem State.modWeather_links : (s.modWeather f).links = s.links := rfl
@[simp] theorem State.modWeather_counters : (s.modWeather f).counters = s.counters := rfl
@[simp] theorem State.modWeather_pending : (s.modWeather f).pending = s.pending := rfl

end

section

variable (f : Signs → Signs) (s : State)

@[simp] theorem State.modSigns_start : (s.modSigns f).start = s.start := rfl
@[simp] theorem State.modSigns_loader : (s.modSigns f).loader = s.loader := rfl
@[simp] theorem State.modSigns_image : (s.modSigns f).image = s.image := rfl
@[simp] theorem State.modSigns_timebase : (s.modSigns f).timebase = s.timebase := rfl
@[simp] theorem State.modSigns_pins : (s.modSigns f).pins = s.pins := rfl
@[simp] theorem State.modSigns_west : (s.modSigns f).west = s.west := rfl
@[simp] theorem State.modSigns_east : (s.modSigns f).east = s.east := rfl
@[simp] theorem State.modSigns_queues : (s.modSigns f).queues = s.queues := rfl
@[simp] theorem State.modSigns_returns : (s.modSigns f).returns = s.returns := rfl
@[simp] theorem State.modSigns_seqs : (s.modSigns f).seqs = s.seqs := rfl
@[simp] theorem State.modSigns_store : (s.modSigns f).store = s.store := rfl
@[simp] theorem State.modSigns_holdback : (s.modSigns f).holdback = s.holdback := rfl
@[simp] theorem State.modSigns_peers : (s.modSigns f).peers = s.peers := rfl
@[simp] theorem State.modSigns_phone : (s.modSigns f).phone = s.phone := rfl
@[simp] theorem State.modSigns_switchboard : (s.modSigns f).switchboard = s.switchboard := rfl
@[simp] theorem State.modSigns_journal : (s.modSigns f).journal = s.journal := rfl
@[simp] theorem State.modSigns_collector : (s.modSigns f).collector = s.collector := rfl
@[simp] theorem State.modSigns_weather : (s.modSigns f).weather = s.weather := rfl
@[simp] theorem State.modSigns_signs : (s.modSigns f).signs = f s.signs := rfl
@[simp] theorem State.modSigns_maint : (s.modSigns f).maint = s.maint := rfl
@[simp] theorem State.modSigns_alerts : (s.modSigns f).alerts = s.alerts := rfl
@[simp] theorem State.modSigns_links : (s.modSigns f).links = s.links := rfl
@[simp] theorem State.modSigns_counters : (s.modSigns f).counters = s.counters := rfl
@[simp] theorem State.modSigns_pending : (s.modSigns f).pending = s.pending := rfl

end

section

variable (f : Maint → Maint) (s : State)

@[simp] theorem State.modMaint_start : (s.modMaint f).start = s.start := rfl
@[simp] theorem State.modMaint_loader : (s.modMaint f).loader = s.loader := rfl
@[simp] theorem State.modMaint_image : (s.modMaint f).image = s.image := rfl
@[simp] theorem State.modMaint_timebase : (s.modMaint f).timebase = s.timebase := rfl
@[simp] theorem State.modMaint_pins : (s.modMaint f).pins = s.pins := rfl
@[simp] theorem State.modMaint_west : (s.modMaint f).west = s.west := rfl
@[simp] theorem State.modMaint_east : (s.modMaint f).east = s.east := rfl
@[simp] theorem State.modMaint_queues : (s.modMaint f).queues = s.queues := rfl
@[simp] theorem State.modMaint_returns : (s.modMaint f).returns = s.returns := rfl
@[simp] theorem State.modMaint_seqs : (s.modMaint f).seqs = s.seqs := rfl
@[simp] theorem State.modMaint_store : (s.modMaint f).store = s.store := rfl
@[simp] theorem State.modMaint_holdback : (s.modMaint f).holdback = s.holdback := rfl
@[simp] theorem State.modMaint_peers : (s.modMaint f).peers = s.peers := rfl
@[simp] theorem State.modMaint_phone : (s.modMaint f).phone = s.phone := rfl
@[simp] theorem State.modMaint_switchboard : (s.modMaint f).switchboard = s.switchboard := rfl
@[simp] theorem State.modMaint_journal : (s.modMaint f).journal = s.journal := rfl
@[simp] theorem State.modMaint_collector : (s.modMaint f).collector = s.collector := rfl
@[simp] theorem State.modMaint_weather : (s.modMaint f).weather = s.weather := rfl
@[simp] theorem State.modMaint_signs : (s.modMaint f).signs = s.signs := rfl
@[simp] theorem State.modMaint_maint : (s.modMaint f).maint = f s.maint := rfl
@[simp] theorem State.modMaint_alerts : (s.modMaint f).alerts = s.alerts := rfl
@[simp] theorem State.modMaint_links : (s.modMaint f).links = s.links := rfl
@[simp] theorem State.modMaint_counters : (s.modMaint f).counters = s.counters := rfl
@[simp] theorem State.modMaint_pending : (s.modMaint f).pending = s.pending := rfl

end

section

variable (f : Table Alert AlertRec → Table Alert AlertRec) (s : State)

@[simp] theorem State.modAlerts_start : (s.modAlerts f).start = s.start := rfl
@[simp] theorem State.modAlerts_loader : (s.modAlerts f).loader = s.loader := rfl
@[simp] theorem State.modAlerts_image : (s.modAlerts f).image = s.image := rfl
@[simp] theorem State.modAlerts_timebase : (s.modAlerts f).timebase = s.timebase := rfl
@[simp] theorem State.modAlerts_pins : (s.modAlerts f).pins = s.pins := rfl
@[simp] theorem State.modAlerts_west : (s.modAlerts f).west = s.west := rfl
@[simp] theorem State.modAlerts_east : (s.modAlerts f).east = s.east := rfl
@[simp] theorem State.modAlerts_queues : (s.modAlerts f).queues = s.queues := rfl
@[simp] theorem State.modAlerts_returns : (s.modAlerts f).returns = s.returns := rfl
@[simp] theorem State.modAlerts_seqs : (s.modAlerts f).seqs = s.seqs := rfl
@[simp] theorem State.modAlerts_store : (s.modAlerts f).store = s.store := rfl
@[simp] theorem State.modAlerts_holdback : (s.modAlerts f).holdback = s.holdback := rfl
@[simp] theorem State.modAlerts_peers : (s.modAlerts f).peers = s.peers := rfl
@[simp] theorem State.modAlerts_phone : (s.modAlerts f).phone = s.phone := rfl
@[simp] theorem State.modAlerts_switchboard : (s.modAlerts f).switchboard = s.switchboard := rfl
@[simp] theorem State.modAlerts_journal : (s.modAlerts f).journal = s.journal := rfl
@[simp] theorem State.modAlerts_collector : (s.modAlerts f).collector = s.collector := rfl
@[simp] theorem State.modAlerts_weather : (s.modAlerts f).weather = s.weather := rfl
@[simp] theorem State.modAlerts_signs : (s.modAlerts f).signs = s.signs := rfl
@[simp] theorem State.modAlerts_maint : (s.modAlerts f).maint = s.maint := rfl
@[simp] theorem State.modAlerts_alerts : (s.modAlerts f).alerts = f s.alerts := rfl
@[simp] theorem State.modAlerts_links : (s.modAlerts f).links = s.links := rfl
@[simp] theorem State.modAlerts_counters : (s.modAlerts f).counters = s.counters := rfl
@[simp] theorem State.modAlerts_pending : (s.modAlerts f).pending = s.pending := rfl

end

section

variable (f : Table Counter Word → Table Counter Word) (s : State)

@[simp] theorem State.modCounters_start : (s.modCounters f).start = s.start := rfl
@[simp] theorem State.modCounters_loader : (s.modCounters f).loader = s.loader := rfl
@[simp] theorem State.modCounters_image : (s.modCounters f).image = s.image := rfl
@[simp] theorem State.modCounters_timebase : (s.modCounters f).timebase = s.timebase := rfl
@[simp] theorem State.modCounters_pins : (s.modCounters f).pins = s.pins := rfl
@[simp] theorem State.modCounters_west : (s.modCounters f).west = s.west := rfl
@[simp] theorem State.modCounters_east : (s.modCounters f).east = s.east := rfl
@[simp] theorem State.modCounters_queues : (s.modCounters f).queues = s.queues := rfl
@[simp] theorem State.modCounters_returns : (s.modCounters f).returns = s.returns := rfl
@[simp] theorem State.modCounters_seqs : (s.modCounters f).seqs = s.seqs := rfl
@[simp] theorem State.modCounters_store : (s.modCounters f).store = s.store := rfl
@[simp] theorem State.modCounters_holdback : (s.modCounters f).holdback = s.holdback := rfl
@[simp] theorem State.modCounters_peers : (s.modCounters f).peers = s.peers := rfl
@[simp] theorem State.modCounters_phone : (s.modCounters f).phone = s.phone := rfl
@[simp] theorem State.modCounters_switchboard : (s.modCounters f).switchboard = s.switchboard := rfl
@[simp] theorem State.modCounters_journal : (s.modCounters f).journal = s.journal := rfl
@[simp] theorem State.modCounters_collector : (s.modCounters f).collector = s.collector := rfl
@[simp] theorem State.modCounters_weather : (s.modCounters f).weather = s.weather := rfl
@[simp] theorem State.modCounters_signs : (s.modCounters f).signs = s.signs := rfl
@[simp] theorem State.modCounters_maint : (s.modCounters f).maint = s.maint := rfl
@[simp] theorem State.modCounters_alerts : (s.modCounters f).alerts = s.alerts := rfl
@[simp] theorem State.modCounters_links : (s.modCounters f).links = s.links := rfl
@[simp] theorem State.modCounters_counters : (s.modCounters f).counters = f s.counters := rfl
@[simp] theorem State.modCounters_pending : (s.modCounters f).pending = s.pending := rfl

end

section

variable (f : Queues → Queues) (s : State)

@[simp] theorem State.modQueues_start : (s.modQueues f).start = s.start := rfl
@[simp] theorem State.modQueues_loader : (s.modQueues f).loader = s.loader := rfl
@[simp] theorem State.modQueues_image : (s.modQueues f).image = s.image := rfl
@[simp] theorem State.modQueues_timebase : (s.modQueues f).timebase = s.timebase := rfl
@[simp] theorem State.modQueues_pins : (s.modQueues f).pins = s.pins := rfl
@[simp] theorem State.modQueues_west : (s.modQueues f).west = s.west := rfl
@[simp] theorem State.modQueues_east : (s.modQueues f).east = s.east := rfl
@[simp] theorem State.modQueues_queues : (s.modQueues f).queues = f s.queues := rfl
@[simp] theorem State.modQueues_returns : (s.modQueues f).returns = s.returns := rfl
@[simp] theorem State.modQueues_seqs : (s.modQueues f).seqs = s.seqs := rfl
@[simp] theorem State.modQueues_store : (s.modQueues f).store = s.store := rfl
@[simp] theorem State.modQueues_holdback : (s.modQueues f).holdback = s.holdback.notice s.image.starveLimit s.queues (f s.queues) := rfl
@[simp] theorem State.modQueues_peers : (s.modQueues f).peers = s.peers := rfl
@[simp] theorem State.modQueues_phone : (s.modQueues f).phone = s.phone := rfl
@[simp] theorem State.modQueues_switchboard : (s.modQueues f).switchboard = s.switchboard := rfl
@[simp] theorem State.modQueues_journal : (s.modQueues f).journal = s.journal := rfl
@[simp] theorem State.modQueues_collector : (s.modQueues f).collector = s.collector := rfl
@[simp] theorem State.modQueues_weather : (s.modQueues f).weather = s.weather := rfl
@[simp] theorem State.modQueues_signs : (s.modQueues f).signs = s.signs := rfl
@[simp] theorem State.modQueues_maint : (s.modQueues f).maint = s.maint := rfl
@[simp] theorem State.modQueues_alerts : (s.modQueues f).alerts = s.alerts := rfl
@[simp] theorem State.modQueues_links : (s.modQueues f).links = s.links := rfl
@[simp] theorem State.modQueues_counters : (s.modQueues f).counters = s.counters := rfl
@[simp] theorem State.modQueues_pending : (s.modQueues f).pending = s.pending := rfl

end

section

variable (p : Port) (f : PortRec → PortRec) (s : State)

@[simp] theorem State.modPort_start : (s.modPort p f).start = s.start := by cases p <;> rfl
@[simp] theorem State.modPort_loader : (s.modPort p f).loader = s.loader := by cases p <;> rfl
@[simp] theorem State.modPort_image : (s.modPort p f).image = s.image := by cases p <;> rfl
@[simp] theorem State.modPort_timebase : (s.modPort p f).timebase = s.timebase := by cases p <;> rfl
@[simp] theorem State.modPort_pins : (s.modPort p f).pins = s.pins := by cases p <;> rfl
@[simp] theorem State.modPort_queues : (s.modPort p f).queues = s.queues := by cases p <;> rfl
@[simp] theorem State.modPort_returns : (s.modPort p f).returns = s.returns := by cases p <;> rfl
@[simp] theorem State.modPort_seqs : (s.modPort p f).seqs = s.seqs := by cases p <;> rfl
@[simp] theorem State.modPort_store : (s.modPort p f).store = s.store := by cases p <;> rfl
@[simp] theorem State.modPort_holdback : (s.modPort p f).holdback = s.holdback := by cases p <;> rfl
@[simp] theorem State.modPort_peers : (s.modPort p f).peers = s.peers := by cases p <;> rfl
@[simp] theorem State.modPort_phone : (s.modPort p f).phone = s.phone := by cases p <;> rfl
@[simp] theorem State.modPort_switchboard : (s.modPort p f).switchboard = s.switchboard := by cases p <;> rfl
@[simp] theorem State.modPort_journal : (s.modPort p f).journal = s.journal := by cases p <;> rfl
@[simp] theorem State.modPort_collector : (s.modPort p f).collector = s.collector := by cases p <;> rfl
@[simp] theorem State.modPort_weather : (s.modPort p f).weather = s.weather := by cases p <;> rfl
@[simp] theorem State.modPort_signs : (s.modPort p f).signs = s.signs := by cases p <;> rfl
@[simp] theorem State.modPort_maint : (s.modPort p f).maint = s.maint := by cases p <;> rfl
@[simp] theorem State.modPort_alerts : (s.modPort p f).alerts = s.alerts := by cases p <;> rfl
@[simp] theorem State.modPort_links : (s.modPort p f).links = s.links := by cases p <;> rfl
@[simp] theorem State.modPort_counters : (s.modPort p f).counters = s.counters := by cases p <;> rfl
@[simp] theorem State.modPort_pending : (s.modPort p f).pending = s.pending := by cases p <;> rfl

@[simp] theorem State.modPort_port : (s.modPort p f).port p = f (s.port p) := by cases p <;> rfl

theorem State.modPort_port_other (q : Port) (h : q ≠ p) : (s.modPort p f).port q = s.port q := by
  cases p <;> cases q <;> first | rfl | exact absurd rfl h

end

section

variable (l : Link) (f : LinkRec → LinkRec) (s : State)

@[simp] theorem State.modLink_start : (s.modLink l f).start = s.start := rfl
@[simp] theorem State.modLink_loader : (s.modLink l f).loader = s.loader := rfl
@[simp] theorem State.modLink_image : (s.modLink l f).image = s.image := rfl
@[simp] theorem State.modLink_timebase : (s.modLink l f).timebase = s.timebase := rfl
@[simp] theorem State.modLink_pins : (s.modLink l f).pins = s.pins := rfl
@[simp] theorem State.modLink_west : (s.modLink l f).west = s.west := rfl
@[simp] theorem State.modLink_east : (s.modLink l f).east = s.east := rfl
@[simp] theorem State.modLink_queues : (s.modLink l f).queues = s.queues := rfl
@[simp] theorem State.modLink_returns : (s.modLink l f).returns = s.returns := rfl
@[simp] theorem State.modLink_seqs : (s.modLink l f).seqs = s.seqs := rfl
@[simp] theorem State.modLink_store : (s.modLink l f).store = s.store := rfl
@[simp] theorem State.modLink_holdback : (s.modLink l f).holdback = s.holdback := rfl
@[simp] theorem State.modLink_peers : (s.modLink l f).peers = s.peers := rfl
@[simp] theorem State.modLink_phone : (s.modLink l f).phone = s.phone := rfl
@[simp] theorem State.modLink_switchboard : (s.modLink l f).switchboard = s.switchboard := rfl
@[simp] theorem State.modLink_journal : (s.modLink l f).journal = s.journal := rfl
@[simp] theorem State.modLink_collector : (s.modLink l f).collector = s.collector := rfl
@[simp] theorem State.modLink_weather : (s.modLink l f).weather = s.weather := rfl
@[simp] theorem State.modLink_signs : (s.modLink l f).signs = s.signs := rfl
@[simp] theorem State.modLink_maint : (s.modLink l f).maint = s.maint := rfl
@[simp] theorem State.modLink_alerts : (s.modLink l f).alerts = s.alerts := rfl
@[simp] theorem State.modLink_counters : (s.modLink l f).counters = s.counters := rfl
@[simp] theorem State.modLink_pending : (s.modLink l f).pending = s.pending := rfl

@[simp] theorem State.modLink_link : (s.modLink l f).link l = f (s.link l) := by cases l <;> rfl

theorem State.modLink_link_other (k : Link) (h : k ≠ l) : (s.modLink l f).link k = s.link k := by
  cases l <;> cases k <;> first | rfl | exact absurd rfl h

end

section

variable (s : State)

@[simp] theorem State.modStart_port (f : StartState → StartState) (p : Port) : (s.modStart f).port p = s.port p := by
  cases p <;> rfl
@[simp] theorem State.modStart_link (f : StartState → StartState) (l : Link) : (s.modStart f).link l = s.link l := rfl
@[simp] theorem State.modLoader_port (f : Loader → Loader) (p : Port) : (s.modLoader f).port p = s.port p := by
  cases p <;> rfl
@[simp] theorem State.modLoader_link (f : Loader → Loader) (l : Link) : (s.modLoader f).link l = s.link l := rfl
@[simp] theorem State.modImage_port (f : Image → Image) (p : Port) : (s.modImage f).port p = s.port p := by
  cases p <;> rfl
@[simp] theorem State.modImage_link (f : Image → Image) (l : Link) : (s.modImage f).link l = s.link l := rfl
@[simp] theorem State.modTimebase_port (f : BitVec 24 → BitVec 24) (p : Port) : (s.modTimebase f).port p = s.port p := by
  cases p <;> rfl
@[simp] theorem State.modTimebase_link (f : BitVec 24 → BitVec 24) (l : Link) : (s.modTimebase f).link l = s.link l := rfl
@[simp] theorem State.modPins_port (f : Pins → Pins) (p : Port) : (s.modPins f).port p = s.port p := by
  cases p <;> rfl
@[simp] theorem State.modPins_link (f : Pins → Pins) (l : Link) : (s.modPins f).link l = s.link l := rfl
@[simp] theorem State.modReturns_port (f : List ReturnEntry → List ReturnEntry) (p : Port) : (s.modReturns f).port p = s.port p := by
  cases p <;> rfl
@[simp] theorem State.modReturns_link (f : List ReturnEntry → List ReturnEntry) (l : Link) : (s.modReturns f).link l = s.link l := rfl
@[simp] theorem State.modSeqs_port (f : Seqs → Seqs) (p : Port) : (s.modSeqs f).port p = s.port p := by
  cases p <;> rfl
@[simp] theorem State.modSeqs_link (f : Seqs → Seqs) (l : Link) : (s.modSeqs f).link l = s.link l := rfl
@[simp] theorem State.modStore_port (f : Store → Store) (p : Port) : (s.modStore f).port p = s.port p := by
  cases p <;> rfl
@[simp] theorem State.modStore_link (f : Store → Store) (l : Link) : (s.modStore f).link l = s.link l := rfl
@[simp] theorem State.modHoldback_port (f : Holdback → Holdback) (p : Port) : (s.modHoldback f).port p = s.port p := by
  cases p <;> rfl
@[simp] theorem State.modHoldback_link (f : Holdback → Holdback) (l : Link) : (s.modHoldback f).link l = s.link l := rfl
@[simp] theorem State.modPeers_port (f : Peers → Peers) (p : Port) : (s.modPeers f).port p = s.port p := by
  cases p <;> rfl
@[simp] theorem State.modPeers_link (f : Peers → Peers) (l : Link) : (s.modPeers f).link l = s.link l := rfl
@[simp] theorem State.modPhone_port (f : Phone → Phone) (p : Port) : (s.modPhone f).port p = s.port p := by
  cases p <;> rfl
@[simp] theorem State.modPhone_link (f : Phone → Phone) (l : Link) : (s.modPhone f).link l = s.link l := rfl
@[simp] theorem State.modSwitchboard_port (f : Switchboard → Switchboard) (p : Port) : (s.modSwitchboard f).port p = s.port p := by
  cases p <;> rfl
@[simp] theorem State.modSwitchboard_link (f : Switchboard → Switchboard) (l : Link) : (s.modSwitchboard f).link l = s.link l := rfl
@[simp] theorem State.modJournal_port (f : Journal → Journal) (p : Port) : (s.modJournal f).port p = s.port p := by
  cases p <;> rfl
@[simp] theorem State.modJournal_link (f : Journal → Journal) (l : Link) : (s.modJournal f).link l = s.link l := rfl
@[simp] theorem State.modCollector_port (f : Collector → Collector) (p : Port) : (s.modCollector f).port p = s.port p := by
  cases p <;> rfl
@[simp] theorem State.modCollector_link (f : Collector → Collector) (l : Link) : (s.modCollector f).link l = s.link l := rfl
@[simp] theorem State.modWeather_port (f : Weather → Weather) (p : Port) : (s.modWeather f).port p = s.port p := by
  cases p <;> rfl
@[simp] theorem State.modWeather_link (f : Weather → Weather) (l : Link) : (s.modWeather f).link l = s.link l := rfl
@[simp] theorem State.modSigns_port (f : Signs → Signs) (p : Port) : (s.modSigns f).port p = s.port p := by
  cases p <;> rfl
@[simp] theorem State.modSigns_link (f : Signs → Signs) (l : Link) : (s.modSigns f).link l = s.link l := rfl
@[simp] theorem State.modMaint_port (f : Maint → Maint) (p : Port) : (s.modMaint f).port p = s.port p := by
  cases p <;> rfl
@[simp] theorem State.modMaint_link (f : Maint → Maint) (l : Link) : (s.modMaint f).link l = s.link l := rfl
@[simp] theorem State.modAlerts_port (f : Table Alert AlertRec → Table Alert AlertRec) (p : Port) : (s.modAlerts f).port p = s.port p := by
  cases p <;> rfl
@[simp] theorem State.modAlerts_link (f : Table Alert AlertRec → Table Alert AlertRec) (l : Link) : (s.modAlerts f).link l = s.link l := rfl
@[simp] theorem State.modCounters_port (f : Table Counter Word → Table Counter Word) (p : Port) : (s.modCounters f).port p = s.port p := by
  cases p <;> rfl
@[simp] theorem State.modCounters_link (f : Table Counter Word → Table Counter Word) (l : Link) : (s.modCounters f).link l = s.link l := rfl
@[simp] theorem State.modQueues_port (f : Queues → Queues) (p : Port) : (s.modQueues f).port p = s.port p := by
  cases p <;> rfl
@[simp] theorem State.modQueues_link (f : Queues → Queues) (l : Link) : (s.modQueues f).link l = s.link l := rfl

end

end Sys2Proof.Machine
end

