-- ==== Sys2Proof/Laws/Table.lean ====
section
/-! SUPPORT. Laws of tables: a read after a write gives the value written, a write leaves every other key alone, and the
canonical form is kept. -/

namespace Sys2Proof.Machine

variable {κ ν : Type} [DecidableEq κ]

theorem Table.get_cons (d : ν) (k k' : κ) (v : ν) (t : Table κ ν) :
    Table.get d k ((k', v) :: t) = if k = k' then v else Table.get d k t := rfl

theorem Table.erase_cons (k k' : κ) (v : ν) (t : Table κ ν) :
    Table.erase k ((k', v) :: t) = if k' = k then Table.erase k t else (k', v) :: Table.erase k t := by
  by_cases h : k' = k <;> simp [Table.erase, h]

/-- An erased key reads as the default. -/
theorem Table.get_erase_self (d : ν) (k : κ) (t : Table κ ν) : Table.get d k (Table.erase k t) = d := by
  induction t with
  | nil => rfl
  | cons e t ih =>
    obtain ⟨k', v⟩ := e
    rw [Table.erase_cons]
    split
    · exact ih
    · rename_i h
      rw [Table.get_cons, if_neg (fun hk => h hk.symm)]
      exact ih

/-- Erasing a key leaves the others alone. -/
theorem Table.get_erase_other (d : ν) {k j : κ} (h : j ≠ k) (t : Table κ ν) :
    Table.get d j (Table.erase k t) = Table.get d j t := by
  induction t with
  | nil => rfl
  | cons e t ih =>
    obtain ⟨k', v⟩ := e
    rw [Table.erase_cons, Table.get_cons]
    split
    · rename_i hk
      rw [if_neg (fun hj => h (hj.trans hk)), ih]
    · rw [Table.get_cons, ih]

/-- An inserted key reads as its value where the table lists it nowhere else. -/
theorem Table.get_insert_self (ord : κ → Nat) (d : ν) (k : κ) (v : ν) (t : Table κ ν) (h : ∀ e ∈ t, e.1 ≠ k) :
    Table.get d k (Table.insert ord k v t) = v := by
  induction t with
  | nil => simp [Table.insert, Table.get]
  | cons e t ih =>
    obtain ⟨k', v'⟩ := e
    have hk : k ≠ k' := fun hk => h (k', v') (by simp) hk.symm
    unfold Table.insert
    split
    · simp [Table.get]
    · rw [Table.get_cons, if_neg hk]
      exact ih (fun e he => h e (List.mem_cons_of_mem _ he))

/-- Inserting a key leaves the others alone. -/
theorem Table.get_insert_other (ord : κ → Nat) (d : ν) {k j : κ} (hj : j ≠ k) (v : ν) (t : Table κ ν) :
    Table.get d j (Table.insert ord k v t) = Table.get d j t := by
  induction t with
  | nil => simp [Table.insert, Table.get, hj]
  | cons e t ih =>
    obtain ⟨k', v'⟩ := e
    unfold Table.insert
    split
    · rw [Table.get_cons, if_neg hj]
    · rw [Table.get_cons, Table.get_cons, ih]

theorem Table.not_mem_erase (k : κ) (t : Table κ ν) : ∀ e ∈ Table.erase k t, e.1 ≠ k := by
  intro e he
  simp only [Table.erase, List.mem_filter, decide_eq_true_eq] at he
  exact he.2

variable [DecidableEq ν]

/-- A read after a write gives the value written. -/
@[simp] theorem Table.get_put_self (ord : κ → Nat) (d : ν) (k : κ) (v : ν) (t : Table κ ν) :
    Table.get d k (Table.put ord d k v t) = v := by
  unfold Table.put
  split
  · rename_i h
    rw [Table.get_erase_self, h]
  · exact Table.get_insert_self ord d k v _ (Table.not_mem_erase k t)

/-- A write leaves every other key alone. -/
@[simp] theorem Table.get_put_other (ord : κ → Nat) (d : ν) {k j : κ} (h : j ≠ k) (v : ν) (t : Table κ ν) :
    Table.get d j (Table.put ord d k v t) = Table.get d j t := by
  unfold Table.put
  split
  · exact Table.get_erase_other d h t
  · rw [Table.get_insert_other ord d h, Table.get_erase_other d h]

/-- What a write does to every read. -/
theorem Table.get_put (ord : κ → Nat) (d : ν) (k j : κ) (v : ν) (t : Table κ ν) :
    Table.get d j (Table.put ord d k v t) = if j = k then v else Table.get d j t := by
  split
  · rename_i h
    rw [h, Table.get_put_self]
  · rename_i h
    exact Table.get_put_other ord d h v t

omit [DecidableEq κ] in
/-- The canonical form, said by the pairs: keys rise, and no value is the default. -/
theorem Table.wf_iff (ord : κ → Nat) (d : ν) (t : Table κ ν) :
    Table.wf ord d t = true ↔ t.Pairwise (fun a b => ord a.1 < ord b.1) ∧ ∀ e ∈ t, e.2 ≠ d := by
  induction t with
  | nil => simp [Table.wf]
  | cons e t ih =>
    obtain ⟨k, v⟩ := e
    cases t with
    | nil => simp [Table.wf]
    | cons e' t' =>
      obtain ⟨k', v'⟩ := e'
      simp only [Table.wf, Bool.and_eq_true, decide_eq_true_eq, bne_iff_ne, ne_eq, ih, List.pairwise_cons,
        List.mem_cons, forall_eq_or_imp]
      constructor
      · rintro ⟨⟨hk, hv⟩, ⟨h1, h2⟩, h3, h4⟩
        exact ⟨⟨⟨hk, fun a ha => Nat.lt_trans hk (h1 a ha)⟩, h1, h2⟩, hv, h3, h4⟩
      · rintro ⟨⟨⟨hk, -⟩, h1, h2⟩, hv, h3, h4⟩
        exact ⟨⟨hk, hv⟩, ⟨h1, h2⟩, h3, h4⟩

omit [DecidableEq κ] [DecidableEq ν] in
theorem Table.mem_insert (ord : κ → Nat) (k : κ) (v : ν) (t : Table κ ν) (e : κ × ν) :
    e ∈ Table.insert ord k v t ↔ e = (k, v) ∨ e ∈ t := by
  induction t with
  | nil => simp [Table.insert]
  | cons e' t ih =>
    obtain ⟨k', v'⟩ := e'
    unfold Table.insert
    split
    · simp
    · simp only [List.mem_cons, ih]
      constructor
      · rintro (h | h | h) <;> simp [h]
      · rintro (h | h | h) <;> simp [h]

omit [DecidableEq κ] [DecidableEq ν] in
/-- Insertion keeps rising keys rising, where no listed key has the order of the new one. -/
theorem Table.pairwise_insert (ord : κ → Nat) (k : κ) (v : ν) (t : Table κ ν)
    (ht : t.Pairwise (fun a b => ord a.1 < ord b.1)) (hk : ∀ e ∈ t, ord e.1 ≠ ord k) :
    (Table.insert ord k v t).Pairwise (fun a b => ord a.1 < ord b.1) := by
  induction t with
  | nil => simp [Table.insert]
  | cons e t ih =>
    obtain ⟨k', v'⟩ := e
    rw [List.pairwise_cons] at ht
    unfold Table.insert
    split
    · rename_i h
      refine List.pairwise_cons.mpr ⟨?_, List.pairwise_cons.mpr ht⟩
      intro a ha
      rcases List.mem_cons.mp ha with rfl | ha
      · exact h
      · exact Nat.lt_trans h (ht.1 a ha)
    · rename_i h
      refine List.pairwise_cons.mpr ⟨?_, ih ht.2 (fun e he => hk e (List.mem_cons_of_mem _ he))⟩
      intro a ha
      rcases (Table.mem_insert ord k v t a).mp ha with rfl | ha
      · have := hk (k', v') (by simp)
        simp only at this ⊢
        omega
      · exact ht.1 a ha

/-- A write keeps the canonical form, for an order that tells the keys apart. -/
theorem Table.wf_put (ord : κ → Nat) (hord : ∀ a b, ord a = ord b → a = b) (d : ν) (k : κ) (v : ν) (t : Table κ ν)
    (h : Table.wf ord d t = true) : Table.wf ord d (Table.put ord d k v t) = true := by
  rw [Table.wf_iff] at h ⊢
  have he : (Table.erase k t).Pairwise (fun a b => ord a.1 < ord b.1) := h.1.filter _
  have hm : ∀ e ∈ Table.erase k t, e.2 ≠ d := fun e he => h.2 e (List.mem_filter.mp he).1
  unfold Table.put
  split
  · exact ⟨he, hm⟩
  · rename_i hv
    refine ⟨Table.pairwise_insert ord k v _ he (fun e hke hk => Table.not_mem_erase k t e hke (hord _ _ hk)), ?_⟩
    intro e hin
    rcases (Table.mem_insert ord k v _ e).mp hin with rfl | hin
    · exact hv
    · exact hm e hin

/-- A change of every listed value that keeps the default changes the value of every key. -/
theorem Table.get_mapValues {κ ν : Type} [DecidableEq κ] {d : ν} {f : ν → ν} (hf : f d = d) (t : Table κ ν) (k : κ) :
    Table.get d k (Table.mapValues f t) = f (Table.get d k t) := by
  induction t with
  | nil => simp [Table.get, Table.mapValues, hf]
  | cons a l ih =>
    simp only [Table.mapValues, List.map_cons, Table.get] at ih ⊢
    split
    · rfl
    · exact ih

end Sys2Proof.Machine
end

