-- ==== Sys2Proof/Laws/Ops.lean ====
section
/-! SUPPORT. One lemma for each shared operation, saying once everything it can do: counting and reporting, cells of the
Frame Store, queues, placing frames, the return list's registration, output queues, span words, abandoned frames. -/

namespace Sys2Proof.Machine

/-! ## Event counters and alerts -/

/-- Counting touches the counters alone. -/
theorem State.count_eq (c : Counter) (s : State) : s.count c = { s with counters := (s.count c).counters } := rfl

/-- What counting does to every counter. -/
theorem State.count_counter (c k : Counter) (s : State) :
    (s.count c).counter k = if k = c then satInc (s.counter c) else s.counter k := by
  simp only [State.count, State.counter, State.modCounters]
  rw [Table.get_put]

theorem State.count_counts (c : Counter) (s : State) : Counts [c] s (s.count c) := by
  intro k
  rw [State.count_counter]
  by_cases h : k = c <;> simp [h]

theorem State.tally_counts (c : StationCounter) (s : State) : Counts [.station c] s (s.tally c) :=
  State.count_counts _ _

/-- Nothing counted. -/
theorem Counts.refl (s : State) : Counts [] s s := by
  intro k
  simp

/-- Counts of steps that follow one another add up where they count different counters. -/
theorem Counts.trans {cs ds : List Counter} {s t u : State} (h : Counts cs s t) (h' : Counts ds t u)
    (hd : ∀ c ∈ cs, c ∉ ds) : Counts (cs ++ ds) s u := by
  intro k
  rw [h' k, h k]
  by_cases hc : k ∈ cs
  · simp [hc, hd k hc]
  · simp [hc]

/-- Counts look at the counters alone. -/
theorem Counts.of_eq {cs : List Counter} {s t s' t' : State} (h : Counts cs s t) (hs : s'.counters = s.counters)
    (ht : t'.counters = t.counters) : Counts cs s' t' := by
  intro k
  have := h k
  simpa only [State.counter, hs, ht] using this

/-- A report touches the latches and the counters alone. -/
theorem State.report_eq (a : Alert) (s : State) :
    s.report a = { s with alerts := (s.report a).alerts, counters := (s.report a).counters } := rfl

/-- A report latches its event. -/
theorem State.report_latched (a : Alert) (s : State) : ((s.report a).alert a).latched = true := by
  simp [State.report, State.alert, State.count, State.modCounters, State.modAlerts]

/-- The time of an event is stored when its latch was clear. -/
theorem State.report_time (a : Alert) (s : State) :
    ((s.report a).alert a).time = if (s.alert a).latched then (s.alert a).time else s.timebase := by
  simp [State.report, State.alert, State.count, State.modCounters, State.modAlerts]

/-- A report leaves the other latches alone. -/
theorem State.report_other {a b : Alert} (h : b ≠ a) (s : State) : (s.report a).alert b = s.alert b := by
  simp [State.report, State.alert, State.count, State.modCounters, State.modAlerts, h]

/-- When ALERT_N is low. -/
theorem State.alertLow_iff (s : State) :
    s.alertLow = true ↔ s.awake = true ∧ ∃ a, (s.alert a).latched = true ∧ (a = .configFault ∨ s.enabled a = true) := by
  have all : ∀ a, a ∈ allAlerts := by intro a; cases a <;> decide
  simp [State.alertLow, List.any_eq_true, all]

/-- R32: what a score change that leaves the port unisolated does to the state. -/
theorem State.scoreChange_of_not_isolated (p : Port) (c : ScoreChange) (s : State) {e : ErrorState}
    (h : (s.port p).errorState ≠ .isolated) (he : s.nextErrorState (s.port p).errorState (c.apply (s.port p).score) = e)
    (hi : e ≠ .isolated) :
    let t := s.modPort p (fun r => { r with score := c.apply (s.port p).score, errorState := e })
    s.scoreChange p c =
      if (s.port p).errorState = .active ∧ e = .warning then t.report .portWarning else t := by
  unfold State.scoreChange
  dsimp only
  rw [if_neg h, he]
  cases hr : (s.port p).errorState <;> cases e <;> simp_all

/-- A report counts its occurrence. -/
theorem State.report_counts (a : Alert) (s : State) : Counts [.occurrence a] s (s.report a) :=
  (State.count_counts (.occurrence a) _).of_eq rfl rfl

/-! ## Cells of the Frame Store (R76 to R79) -/

@[simp] theorem PerUser.get_set_self {α : Type} (t : PerUser α) (u : User) (a : α) : (t.set u a).get u = a := by
  cases u <;> rfl

@[simp] theorem PerUser.get_set_other {α : Type} (t : PerUser α) {u v : User} (h : v ≠ u) (a : α) :
    (t.set u a).get v = t.get v := by
  cases u <;> cases v <;> first | rfl | exact absurd rfl h

/-- A request that succeeds takes the head of the free list for an able user and raises that user's count. -/
theorem Store.request_some {u : User} {st st' : Store} {n : Nat} (h : st.request u = some (n, st')) :
    ∃ rest, st.free = n :: rest ∧ st.able u = true ∧
      st' = { st with free := rest, users := st.users.set u (st.users.get u).gain } := by
  unfold Store.request at h
  split at h
  · cases h
  · rename_i m rest hf
    split at h
    · rename_i ha
      simp only [Option.some.injEq, Prod.mk.injEq] at h
      exact ⟨rest, by rw [hf, h.1], ha, h.2.symm⟩
    · cases h

/-- A request that fails finds no free cell or a user that is not able. -/
theorem Store.request_none {u : User} {st : Store} (h : st.request u = none) : st.free = [] ∨ st.able u = false := by
  unfold Store.request at h
  split at h
  · exact .inl ‹_›
  · split at h
    · cases h
    · rename_i ha
      exact .inr (by simpa using ha)

/-- A user that is able holds fewer cells than its maximum, if its guarantee is not above it. -/
theorem Store.able_below_maximum {u : User} {st : Store} (h : st.able u = true)
    (hg : (st.users.get u).guarantee ≤ (st.users.get u).maximum) : (st.users.get u).count < (st.users.get u).maximum := by
  simp only [Store.able, Bool.or_eq_true, decide_eq_true_eq, Bool.and_eq_true] at h
  omega

theorem Store.release_free (u : User) (n : Nat) (st : Store) : (st.release u n).free = st.free ++ [n] := rfl

theorem Store.release_count (u : User) (n : Nat) (st : Store) :
    ((st.release u n).users.get u).count = (st.users.get u).count - 1 := by
  simp [Store.release, UserRec.lose]

theorem Store.release_other {u v : User} (h : v ≠ u) (n : Nat) (st : Store) :
    (st.release u n).users.get v = st.users.get v := by
  simp [Store.release, h]

/-- What a transfer does: the cell stays out of the free list and passes from one user's count to the other's. -/
theorem Store.transfer_some {old new : User} {n : Nat} {st st' : Store} (h : st.transfer old new n = some st') :
    (st.release old n).able new = true ∧ st'.free = st.free ∧
      st'.users = (st.release old n).users.set new ((st.release old n).users.get new).gain := by
  unfold Store.transfer at h
  dsimp only at h
  split at h
  · rename_i ha
    simp only [Option.some.injEq] at h
    exact ⟨ha, by rw [← h], by rw [← h]⟩
  · cases h

/-- A request with the count of a refusal: the cell is granted and nothing but the store changes, or it is refused and
nothing but the count of refusals does. -/
theorem State.requestCell_cases (u : User) (s : State) :
    (∃ n st, s.store.request u = some (n, st) ∧ s.requestCell u = (some n, { s with store := st })) ∨
      (s.store.request u = none ∧ s.requestCell u = (none, s.count (.refusals u))) := by
  unfold State.requestCell
  cases h : s.store.request u with
  | none => exact .inr ⟨rfl, rfl⟩
  | some p => exact .inl ⟨p.1, p.2, rfl, rfl⟩

/-! ## Queues (R63, R64, R86) -/

/-- A change of the queues touches the queues and the Holdback Unit alone. -/
theorem State.modQueues_eq (f : Queues → Queues) (s : State) :
    s.modQueues f = { s with queues := f s.queues, holdback := (s.modQueues f).holdback } := rfl

/-- A change that leaves the four ordinary queues as full or as empty as they were gives no notice. -/
theorem Holdback.notice_same (limit : Nat) {before after : Queues} (h : Holdback)
    (hl : after.localOrdinary = before.localOrdinary) (hs : after.starving = before.starving) :
    h.notice limit before after = h := by
  unfold Holdback.notice
  rw [hl, hs]
  cases h.starved <;> cases before.localOrdinary <;> cases before.starving <;> simp

/-- A frame that joins the URGENT queue gives the Holdback Unit no notice. -/
theorem State.joinLocal_urgent {k : Held} (hk : k.frame.kind.urgent = true) (s : State) :
    s.modQueues (Queues.joinLocal k) =
      { s with queues := { s.queues with localUrgent := s.queues.localUrgent ++ [k] } } := by
  have hj : ∀ q : Queues, Queues.joinLocal k q = { q with localUrgent := q.localUrgent ++ [k] } := by
    intro q
    unfold Queues.joinLocal
    split <;> first | rfl | (rename_i h; rw [h] at hk; cases hk)
  unfold State.modQueues
  rw [hj, Holdback.notice_same]
  · rfl
  · rfl

/-! ## Placing frames (R64, R74, R81) -/

/-- What placing a frame of a kind with a sequence counter can do. -/
theorem State.place_cases (u : User) (kind : Kind) (dest : Addr) (group : Bool) (tag : Byte) (payload : List Byte)
    (s : State) :
    (∃ n st, s.store.request u = some (n, st) ∧ s.place u kind dest group tag payload =
        (true, State.insertLocal u n kind dest group tag payload { s with store := st })) ∨
      (s.store.request u = none ∧ s.place u kind dest group tag payload = (false, s.count (.refusals u))) := by
  unfold State.place
  rcases State.requestCell_cases u s with ⟨n, st, h, e⟩ | ⟨h, e⟩
  · exact .inl ⟨n, st, h, by rw [e]⟩
  · exact .inr ⟨h, by rw [e]⟩

/-- A frame made here is the local frame of R64. -/
theorem State.makeFrame_eq (s : State) (kind : Kind) (dest : Addr) (group : Bool) (tag : Byte) (seq : Word)
    (payload : List Byte) :
    s.makeFrame kind dest group tag seq payload = localFrame s kind dest group tag seq payload := rfl

/-- A CALL frame that is granted a cell joins the URGENT queue with the next CALL sequence number, and nothing else
changes. -/
theorem State.sendCall_granted {dest : Addr} {tag : Byte} {m : CallMessage} {arg n : Nat} {st : Store} {s : State}
    (h : s.store.request .urgentOut = some (n, st)) :
    s.sendCall dest tag m arg =
      { s with
        store := st
        seqs := { s.seqs with call := s.seqs.call + 1 }
        queues := { s.queues with
          localUrgent := s.queues.localUrgent ++
            [{ frame := localFrame s .call dest false tag s.seqs.call (callPayload m arg), cell := n
               user := .urgentOut }] } } := by
  unfold State.sendCall
  rcases State.place_cases .urgentOut .call dest false tag (callPayload m arg) s with ⟨n', st', h', e⟩ | ⟨h', -⟩
  · rw [h] at h'
    simp only [Option.some.injEq, Prod.mk.injEq] at h'
    obtain ⟨rfl, rfl⟩ := h'
    rw [e]
    simp only [State.insertLocal]
    rw [State.joinLocal_urgent rfl]
    rfl
  · rw [h] at h'
    cases h'

/-- A CALL frame that is refused a cell is counted as not sent, and nothing else changes (R81). -/
theorem State.sendCall_refused {dest : Addr} {tag : Byte} {m : CallMessage} {arg : Nat} {s : State}
    (h : s.store.request .urgentOut = none) :
    s.sendCall dest tag m arg = (s.count (.refusals .urgentOut)).urgentRefused := by
  unfold State.sendCall
  rcases State.place_cases .urgentOut .call dest false tag (callPayload m arg) s with ⟨n', st', h', -⟩ | ⟨-, e⟩
  · rw [h] at h'
    cases h'
  · rw [e]

/-! ## The return list (R69) -/

/-- A registration keeps the bounds of the return list. -/
theorem canRegister_bounded {k : ReturnKind} {seq : Word} {tag : Byte} {l : List ReturnEntry}
    (h : canRegister k seq tag l = true) (hl : ReturnsBounded l) :
    ReturnsBounded (l ++ [{ kind := k, seq := seq, tag := tag }]) := by
  simp only [canRegister, Bool.and_eq_true, decide_eq_true_eq, Bool.or_eq_true, bne_iff_ne, Bool.not_eq_true',
    List.any_eq_false] at h
  obtain ⟨⟨h16, h4⟩, hnew⟩ := h
  obtain ⟨-, b4, bn⟩ := hl
  refine ⟨by simp [Config.returnPlaces] at h16 ⊢; omega, ?_, ?_⟩
  · rw [List.countP_append]
    cases k with
    | toll =>
      have : (l.filter (fun e => e.kind == .toll)).length < 4 := by
        rcases h4 with h4 | h4
        · exact absurd rfl h4
        · exact h4
      rw [← List.countP_eq_length_filter] at this
      simp only [List.countP_cons, List.countP_nil]
      simp
      omega
    | sign => simpa using b4
  · rw [List.map_append, List.nodup_append]
    refine ⟨bn, by simp, ?_⟩
    intro a ha b hb hab
    simp only [List.map_cons, List.map_nil, List.mem_singleton] at hb
    obtain ⟨e, he, rfl⟩ := List.mem_map.mp ha
    have := hnew e he
    simp only [ReturnEntry.isKey, Bool.and_eq_true, beq_iff_eq] at this
    rw [hb] at hab
    simp only [Prod.mk.injEq] at hab
    exact this ⟨⟨hab.1, hab.2.1⟩, hab.2.2⟩

/-! ## Output queues (R16) -/

@[simp] theorem PerLink.get_set_self {α : Type} (t : PerLink α) (l : Link) (a : α) : (t.set l a).get l = a := by
  cases l <;> rfl

@[simp] theorem PerLink.get_set_other {α : Type} (t : PerLink α) {l k : Link} (h : k ≠ l) (a : α) :
    (t.set l a).get k = t.get k := by
  cases l <;> cases k <;> first | rfl | exact absurd rfl h

/-- The transmitter's look at its queue touches the link's sending flag alone: an active link that has a message and whose
ready input is high is sending afterwards. -/
theorem State.linkStart_eq (l : Link) (s : State) :
    s.linkStart l = s.modLink l (fun r => { r with
      sending := r.sending || (!r.queue.isEmpty && s.linkActive l && s.pins.ready.get l) }) := by
  have same : s.modLink l (fun _ => s.link l) = s := by cases l <;> rfl
  have change : ∀ f g : LinkRec → LinkRec, f (s.link l) = g (s.link l) → s.modLink l f = s.modLink l g := by
    intro f g h
    exact congrArg (fun r => { s with links := s.links.set l r }) h
  unfold State.linkStart
  dsimp only
  split
  · apply change
    simp_all
  · rename_i h
    refine same.symm.trans (change _ _ ?_)
    generalize s.link l = r at h ⊢
    obtain ⟨rx, gap, queue, sending⟩ := r
    simp only [Bool.not_eq_true] at h
    cases sending <;> simp_all

/-- A message that joins an output queue stands at its tail, and an active link whose ready input is high is sending. -/
theorem State.queueMessage_queued (l : Link) (m : Message) (s : State) : Queued l m s (s.queueMessage l m) := by
  unfold Queued State.queueMessage
  rw [State.linkStart_eq]
  have full : ∀ q : List Message, (q ++ [m]).isEmpty = false := by
    intro q
    cases q <;> rfl
  cases l <;> simp [State.modLink, State.link, PerLink.get, PerLink.set, State.linkActive, State.inService, full]

/-- A message that joins an output queue changes the link records alone. -/
theorem State.queueMessage_eq (l : Link) (m : Message) (s : State) :
    s.queueMessage l m = { s with links := (s.queueMessage l m).links } := by
  unfold State.queueMessage
  rw [State.linkStart_eq]
  rfl

/-! ## Receiving one thing after another -/

section

variable {α ε σ : Type} {take : α → σ → Option ε × σ} {l m : List α} {x : α} {s t u : σ} {e : ε}

theorem untilEvent_cons : untilEvent take (x :: l) s = match take x s, l with
    | (some e, s), [] => some (e, s)
    | (none, s), _ :: _ => untilEvent take l s
    | _, _ => none := by
  cases l <;> rcases h : take x s with ⟨_ | e, u⟩ <;> simp [untilEvent, h]

/-- What brings no event may be received in two parts. -/
theorem withoutEvent_append (h : withoutEvent take l s = some t) :
    withoutEvent take (l ++ m) s = withoutEvent take m t := by
  induction l generalizing s with
  | nil => exact Option.some.inj h ▸ rfl
  | cons c rest ih =>
    rw [List.cons_append, withoutEvent]
    rw [withoutEvent] at h
    split at h
    · exact ih h
    · cases h

/-- What brings an event with its last item may have its first part received before. -/
theorem untilEvent_append (h : withoutEvent take l s = some t) (hm : m ≠ []) :
    untilEvent take (l ++ m) s = untilEvent take m t := by
  induction l generalizing s with
  | nil => exact Option.some.inj h ▸ rfl
  | cons c rest ih =>
    rw [withoutEvent] at h
    split at h
    · rename_i hc
      rw [List.cons_append, untilEvent_cons, hc]
      rw [← ih h]
      cases hr : rest ++ m with
      | nil => exact absurd (List.append_eq_nil_iff.mp hr).2 hm
      | cons d rest' => rfl
    · cases h

/-- The last item brings the event, and what came before it brought none. -/
theorem untilEvent_eq_some (h : untilEvent take l s = some (e, u)) :
    ∃ init x t, l = init ++ [x] ∧ withoutEvent take init s = some t ∧ take x t = (some e, u) := by
  induction l generalizing s with
  | nil => cases h
  | cons c rest ih =>
    rw [untilEvent_cons] at h
    split at h
    · obtain ⟨rfl, rfl⟩ := Prod.mk.inj (Option.some.inj h)
      exact ⟨[], c, s, rfl, rfl, ‹_›⟩
    · obtain ⟨init, x, t, hl, hi, hx⟩ := ih h
      exact ⟨c :: init, x, t, by rw [hl]; rfl, by rw [withoutEvent, ‹take c s = _›]; exact hi, hx⟩
    · cases h

/-- What every item does without an event, all of them together do, for a relation that adds up. -/
theorem withoutEvent_induct {R : σ → σ → Prop} (refl : ∀ s, R s s) (trans : ∀ {a b c}, R a b → R b c → R a c)
    (one : ∀ x s, (take x s).1 = none → R s (take x s).2) (h : withoutEvent take l s = some t) : R s t := by
  induction l generalizing s with
  | nil => exact Option.some.inj h ▸ refl _
  | cons c rest ih =>
    rw [withoutEvent] at h
    split at h
    · rename_i v hc
      have := one c s (by rw [hc])
      rw [hc] at this
      exact trans this (ih h)
    · cases h

end

/-! ## Timers (R10) -/

@[simp] theorem Timer.arm_expired (c : Nat) : (Timer.arm c).expired = false := rfl
@[simp] theorem Timer.stopped_tick : Timer.stopped.tick = Timer.stopped := rfl
@[simp] theorem Timer.take_expired (t : Timer) : t.take.expired = false := rfl

/-- A pulse either leaves a stopped timer alone, ends the count, or takes one from it. -/
theorem Timer.tick_cases (t : Timer) :
    (t.left = 0 ∧ t.tick = t) ∨ (t.left = 1 ∧ t.tick = { t with left := t.reload, due := true }) ∨
      (1 < t.left ∧ t.tick = { t with left := t.left - 1 }) := by
  unfold Timer.tick
  by_cases h0 : t.left = 0
  · exact .inl ⟨h0, by rw [if_pos h0]⟩
  · by_cases h1 : t.left = 1
    · exact .inr (.inl ⟨h1, by rw [if_neg h0, if_pos h1]⟩)
    · exact .inr (.inr ⟨by omega, by rw [if_neg h0, if_neg h1]⟩)

/-! ## Span words (R27, R37) -/

/-- What owing a span word does: an IDLE port begins it from its link record at this moment, any other only owes it. -/
theorem State.oweSpan_eq (p : Port) (s : State) :
    s.oweSpan p = s.modPort p (fun r => if r.tx = .idle then
      { r with
        owesSpan := true, aborts := false, tx := .span (spanContent s.image.address r.spanNow.1 r.spanNow.2)
        spanSent := r.spanNow.1, faultSent := r.spanNow.2 }
      else { r with owesSpan := true }) := by
  unfold State.oweSpan State.beginSpan
  cases p
  · simp only [State.modPort, State.port]
    by_cases h : s.west.tx = .idle <;> simp [h, PortRec.spanNow]
  · simp only [State.modPort, State.port]
    by_cases h : s.east.tx = .idle <;> simp [h, PortRec.spanNow]

/-! ## An abandoned frame (R30) -/

/-- A port with no frame on the wire abandons nothing. -/
theorem State.abandonFrame_none {p : Port} {s : State} (h : ∀ k, (s.port p).tx ≠ .frame k) : s.abandonFrame p = s := by
  unfold State.abandonFrame
  split
  · exact absurd ‹_› (h _)
  · rfl

/-- What abandoning a frame does: it is counted in CUT, its cell is freed, and the port sends ABORT before the span word it
owes or IDLE. -/
theorem State.abandonFrame_frame {p : Port} {s : State} {k : Held} (h : (s.port p).tx = .frame k) :
    s.abandonFrame p =
      (((s.portCount p .cut).releaseHeld k).modPort p (fun r => if r.owesSpan then
        { r with
          aborts := true, tx := .span (spanContent s.image.address r.spanNow.1 r.spanNow.2)
          spanSent := r.spanNow.1, faultSent := r.spanNow.2 }
        else { r with tx := .idle, aborts := true })) := by
  have hs : ((s.portCount p .cut).releaseHeld k).image = s.image := by
    unfold State.releaseHeld
    split <;> rfl
  have hp : ((s.portCount p .cut).releaseHeld k).port p = s.port p := by
    unfold State.releaseHeld
    split <;> cases p <;> rfl
  unfold State.abandonFrame
  rw [h]
  dsimp only
  generalize (s.portCount p .cut).releaseHeld k = u at hs hp
  unfold State.afterFrame State.beginSpan
  by_cases ho : (s.port p).owesSpan = true <;> cases p <;>
    simp_all [State.modPort, State.port, PortRec.spanNow]

/-! ## Cells given up together (R79) -/

/-- Frames given up together touch the store alone, which frees their cells one after another. -/
theorem State.releaseAll_eq (l : List Held) (s : State) :
    State.releaseAll l s = { s with
      store := l.foldl (fun st h => if h.user = .journal then st else st.release h.user h.cell) s.store } := by
  induction l generalizing s with
  | nil => rfl
  | cons h l ih =>
    rw [State.releaseAll, ih, List.foldl_cons]
    unfold State.releaseHeld
    split <;> rfl

end Sys2Proof.Machine
end

