-- ==== Sys2Proof/Laws/Links.lean ====
section
/-! SUPPORT. What the record links' receivers can do: a character touches the receiver and the gap timer of its link alone, and
where it brings an event the receiver hunts. -/

namespace Sys2Proof.Machine

/-! ## Link records -/

@[simp] theorem State.link_modLink_self (l : Link) (f : LinkRec → LinkRec) (s : State) :
    (s.modLink l f).link l = f (s.link l) := PerLink.get_set_self _ _ _

@[simp] theorem State.link_modLink_other {l k : Link} (h : k ≠ l) (f : LinkRec → LinkRec) (s : State) :
    (s.modLink l f).link k = s.link k := PerLink.get_set_other _ h _

/-- Two changes of one link's record are one. -/
theorem State.modLink_modLink (l : Link) (f g : LinkRec → LinkRec) (s : State) :
    (s.modLink l f).modLink l g = s.modLink l (fun r => g (f r)) := by
  cases l <;> rfl

@[simp] theorem LinkRec.received_rx (x : LinkRx) (r : LinkRec) : (r.received x).rx = x := rfl
@[simp] theorem LinkRec.received_queue (x : LinkRx) (r : LinkRec) : (r.received x).queue = r.queue := rfl
@[simp] theorem LinkRec.received_sending (x : LinkRx) (r : LinkRec) : (r.received x).sending = r.sending := rfl

/-! ## One character -/

/-- A message ends with a character only where the receiver hunts afterwards. -/
theorem LinkRx.hear_ends {begins : Option Fate} {c : LinkChar} {x y : LinkRx} {e : Fate × Reception}
    (h : x.hear begins c = (y, some e)) : y = .hunting := by
  unfold LinkRx.hear at h
  split at h
  · split at h
    · simp at h
    · split at h
      · split at h
        · exact (Prod.mk.inj h).1.symm
        · simp at h
      · simp at h
  · split at h
    · exact (Prod.mk.inj h).1.symm
    · split at h
      · simp at h
      · exact (Prod.mk.inj h).1.symm
      · exact (Prod.mk.inj h).1.symm

/-- What a character does: the link's receiver and gap timer change, and nothing else. -/
theorem State.hear_eq (l : Link) (c : LinkChar) (s : State) :
    (s.hear l c).2 = s.modLink l (LinkRec.received ((s.link l).rx.hear (s.beginning l) c).1) := rfl

/-- A character that brings an event leaves the receiver hunting and the gap timer stopped. -/
theorem State.hear_event {l : Link} {c : LinkChar} {s t : State} {e : LinkEvent} (h : s.hear l c = (some e, t)) :
    t = s.hunting l := by
  have ht : t = (s.hear l c).2 := by rw [h]
  have he : (s.hear l c).1 = some e := by rw [h]
  unfold State.hear at he
  rcases hx : (s.link l).rx.hear (s.beginning l) c with ⟨y, _ | ended⟩
  · simp [hx] at he
  · rw [ht, State.hear_eq, hx, LinkRx.hear_ends hx]
    rfl

/-- A receiver that hunts after a message hunts whatever it had received before. -/
theorem State.hunting_modLink (l : Link) (x : LinkRx) (s : State) :
    (s.modLink l (LinkRec.received x)).hunting l = s.hunting l := by
  rw [State.hunting, State.modLink_modLink]
  rfl

/-! ## Several characters -/

/-- What a character that brings no event does: of the links, its link's receiver and gap timer alone change. -/
theorem State.hear_links (l k : Link) (c : LinkChar) (s : State) :
    (s.hear l c).2.link k =
      { s.link k with rx := ((s.hear l c).2.link k).rx, gap := ((s.hear l c).2.link k).gap } := by
  rw [State.hear_eq]
  by_cases hk : k = l
  · subst hk
    rw [State.link_modLink_self]
    rfl
  · rw [State.link_modLink_other hk]

/-- Characters that bring no event change the links alone, and of each link its receiver and gap timer alone. -/
theorem State.hearQuietly_eq {heard : List (Link × LinkChar)} {s t : State} (h : s.hearQuietly heard = some t) :
    t = { s with links := t.links } ∧
      ∀ l, t.link l = { s.link l with rx := (t.link l).rx, gap := (t.link l).gap } := by
  refine withoutEvent_induct (R := fun s t => t = { s with links := t.links } ∧
    ∀ l, t.link l = { s.link l with rx := (t.link l).rx, gap := (t.link l).gap }) (fun _ => ⟨rfl, fun _ => rfl⟩) ?_ ?_ h
  · intro a b c hab hbc
    refine ⟨hbc.1.trans (by rw [hab.1]), fun l => (hbc.2 l).trans ?_⟩
    rw [hab.2 l]
  · intro c s _
    exact ⟨by rw [State.hear_eq]; rfl, fun k => State.hear_links c.1 k c.2 s⟩

/-- The characters that bring an event leave their link hunting, and nothing else changed. -/
theorem State.heard_eq {l : Link} {chars : List LinkChar} {s t : State} {e : LinkEvent}
    (h : s.heard l chars = some (e, t)) : t = s.hunting l := by
  obtain ⟨init, x, u, -, hi, hx⟩ := untilEvent_eq_some h
  rw [State.hear_event hx]
  refine withoutEvent_induct (R := fun s t : State => t.hunting l = s.hunting l) (fun _ => rfl)
    (fun hab hbc => hbc.trans hab) ?_ hi
  intro c s _
  rw [State.hear_eq, State.hunting_modLink]

/-! ## The gap timer -/

/-- The gap timer's expiry counts a malformed message or nothing, and leaves the receiver hunting (R14). -/
theorem State.gapExpires_eq (l : Link) (s : State) :
    s.gapExpires l = if (s.gapEvent l).isSome then (s.hunting l).count (.link l .malformed) else s.hunting l := rfl

end Sys2Proof.Machine
end

