-- ==== Sys2Proof/Laws/Phone.lean ====
section
/-! SUPPORT. What a change of a line's or channel's record can do: the record, the slot that a talk's begin or end empties,
what is counted and the incident state change, and nothing else. -/

namespace Sys2Proof.Machine

/-! ## Keys -/

theorem Place.code_injective (a b : Place) (h : a.code = b.code) : a = b := by
  cases a <;> cases b <;> simp only [Place.code] at h <;> (congr 1; omega)

/-! ## Voices (R120, R122) -/

theorem State.voice_modVoice (c d : Place) (f : Voice → Voice) (s : State) :
    (s.modVoice c f).voice d = if d = c then f (s.voice c) else s.voice d := Table.get_put _ _ _ _ _ _

/-- A change of a voice touches the voices alone. -/
theorem State.modVoice_eq (c : Place) (f : Voice → Voice) (s : State) :
    s.modVoice c f = { s with phone := { s.phone with voice := (s.modVoice c f).phone.voice } } := rfl

@[simp] theorem State.line_modVoice (c : Place) (f : Voice → Voice) (i : Fin 4) (s : State) :
    (s.modVoice c f).line i = s.line i := rfl

@[simp] theorem State.channel_modVoice (c : Place) (f : Voice → Voice) (d : Fin 16) (s : State) :
    (s.modVoice c f).channel d = s.channel d := rfl

/-- An emptied slot leaves the voice sequence and every other slot alone. -/
theorem State.voice_emptySlot (c d : Place) (s : State) :
    (s.emptySlot c).voice d = if d = c then { s.voice c with slot := {} } else s.voice d := State.voice_modVoice _ _ _ _

/-! ## Lines (R107, R119, R123) -/

/-- The off-hook notice touches the incident state and its timer alone (R180). -/
theorem State.offHookNotice_eq (before after : Nat) (s : State) :
    s.offHookNotice before after = { s with
      signs := { s.signs with
        incident := (s.offHookNotice before after).signs.incident
        incidentTimer := (s.offHookNotice before after).signs.incidentTimer } } := by
  unfold State.offHookNotice
  split
  · rfl
  · split
    · unfold State.incidentRises
      split
      · split <;> rfl
      · rfl
      · rfl
    · split
      · unfold State.incidentClears
        split <;> rfl
      · rfl

/-- A record that is put to a line: it, the slot of the line, the count of connected calls and the incident state. -/
theorem State.setLine_cases (i : Fin 4) (new : Line) (s : State) :
    ∃ u, u = { s with phone := { s.phone with lines := u.phone.lines, voice := u.phone.voice }, counters := u.counters } ∧
      u.phone.lines = s.phone.lines.put Fin.val {} i new ∧
      (∀ p, u.voice p = if p = .line i ∧ ((s.line i).state == .talking) ≠ (new.state == .talking) then
        { s.voice p with slot := {} } else s.voice p) ∧
      Counts (if (s.line i).state ≠ .talking ∧ new.state = .talking then [.station .callsConnected] else []) s u ∧
      s.setLine i new = u.offHookNotice s.offHookCount u.offHookCount := by
  refine ⟨_, ?_, ?_, ?_, ?_, rfl⟩
  · split <;> split <;> rfl
  · split <;> split <;> rfl
  · intro p
    by_cases h : ((s.line i).state == .talking) = (new.state == .talking)
    · have hn : ¬ (p = .line i ∧ ((s.line i).state == .talking) ≠ (new.state == .talking)) := fun k => k.2 h
      rw [if_neg hn]
      simp only [if_pos h]
      split <;> rfl
    · simp only [if_neg h]
      split <;>
        exact (State.voice_emptySlot _ _ _).trans (by by_cases hp : p = .line i <;> simp [hp, h] <;> rfl)
  · by_cases h : (s.line i).state ≠ .talking ∧ new.state = .talking
    · simp only [if_pos h]
      refine (State.tally_counts _ _).of_eq ?_ rfl
      split <;> rfl
    · simp only [if_neg h]
      refine (Counts.refl s).of_eq rfl ?_
      split <;> rfl

/-- The line has the record that is put to it, and every other line keeps its own. -/
theorem State.line_setLine (i j : Fin 4) (new : Line) (s : State) :
    (s.setLine i new).line j = if j = i then new else s.line j := by
  obtain ⟨u, -, hl, -, -, hs⟩ := State.setLine_cases i new s
  rw [hs, State.offHookNotice_eq]
  show u.phone.lines.get {} j = _
  rw [hl]
  exact Table.get_put _ _ _ _ _ _

@[simp] theorem State.offHookCount_offHookNotice (before after : Nat) (s : State) :
    (s.offHookNotice before after).offHookCount = s.offHookCount := by
  rw [State.offHookNotice_eq]
  rfl

/-- The incident state follows a record that is put to a line (R119, R180). -/
theorem State.incidentFollows_setLine (i : Fin 4) (new : Line) (s : State) : IncidentFollows s (s.setLine i new) := by
  obtain ⟨u, hu, -, -, -, hs⟩ := State.setLine_cases i new s
  have hi : u.image = s.image := by rw [hu]
  have hg : u.signs = s.signs := by rw [hu]
  unfold IncidentFollows
  rw [hs, State.offHookCount_offHookNotice]
  unfold State.offHookNotice
  rw [hi]
  by_cases hr : s.image.roles.sign = .signs
  · by_cases ha : s.offHookCount = 0 <;> by_cases hb : u.offHookCount = 0 <;> simp [hr, ha, hb, hg]
    · unfold State.incidentRises Image.incidentUsed
      rw [hg, hi]
      cases s.signs.incident <;>
        by_cases hd : s.image.incidentDelay = 0 <;> by_cases hp : s.image.incidentPattern = 0#8 <;>
          simp [hd, hp, hg, State.setIncident, State.modSigns]
    · unfold State.incidentClears
      rw [hg, hi]
      cases s.signs.incident <;> simp [hg, State.setIncident, State.modSigns]
  · simp [hr, hg]

/-! ## Channels (R123, R127) -/

/-- A record that is put to a channel: it, and the slot of a channel that begins or ends talking to a party. -/
theorem State.setChannel_eq (c : Fin 16) (new : Channel) (s : State) :
    s.setChannel c new = { s with
      switchboard := { s.switchboard with channels := s.switchboard.channels.put Fin.val {} c new }
      phone := { s.phone with voice := (s.setChannel c new).phone.voice } } := by
  unfold State.setChannel
  dsimp only
  split <;> rfl

theorem State.channel_setChannel (c d : Fin 16) (new : Channel) (s : State) :
    (s.setChannel c new).channel d = if d = c then new else s.channel d := by
  rw [State.setChannel_eq]
  exact Table.get_put _ _ _ _ _ _

/-- From a console command on, VOICE frames are built for a channel (R127): its mark is set, and no slot is touched. -/
theorem State.voiceNow_eq (c : Fin 16) (s : State) :
    s.voiceNow c = { s with switchboard := { s.switchboard with
      channels := s.switchboard.channels.put Fin.val {} c { s.channel c with voicing := true } } } := by
  unfold State.voiceNow State.modChannel State.setChannel Channel.talksTo
  simp only [ite_true]
  rfl

theorem State.voice_setChannel (c : Fin 16) (p : Place) (new : Channel) (s : State) :
    (s.setChannel c new).voice p =
      if p = .channel c ∧ (s.channel c).talksTo ≠ new.talksTo then { s.voice p with slot := {} } else s.voice p := by
  unfold State.setChannel
  by_cases h : (s.channel c).talksTo = new.talksTo
  · simp only [h, ne_eq, not_true_eq_false, and_false, if_false]
    rfl
  · simp only [if_neg h]
    exact (State.voice_emptySlot _ _ _).trans (by by_cases hp : p = .channel c <;> simp [hp, h] <;> rfl)

/-! ## CALL messages (R118, R138) -/

/-- What the counters and latches of an URGENT frame that finds no cell come to (R81). -/
theorem State.urgentRefused_counts (s : State) :
    Counts [.refusals .urgentOut, .station .urgentNotSent, .occurrence .cellShortage] s
      (s.count (.refusals .urgentOut)).urgentRefused :=
  ((State.count_counts _ _).trans ((State.tally_counts _ _).trans (State.report_counts _ _) (by decide)) (by decide))

/-- Nothing but counters and latches changes. -/
theorem State.urgentRefused_frame (s : State) :
    ∃ counters alerts, (s.count (.refusals .urgentOut)).urgentRefused = { s with counters := counters, alerts := alerts } :=
  ⟨_, _, (State.report_eq _ _).trans (by rw [State.tally, State.count_eq, State.count_eq (.refusals .urgentOut)])⟩

theorem State.urgentRefused_latched (s : State) :
    ((s.count (.refusals .urgentOut)).urgentRefused.alert .cellShortage).latched = true := State.report_latched _ _

theorem State.urgentRefused_other {a : Alert} (h : a ≠ .cellShortage) (s : State) :
    (s.count (.refusals .urgentOut)).urgentRefused.alert a = s.alert a := State.report_other h _

/-- A message about a line is sent, whether or not it finds a cell, and nothing else changes. -/
theorem State.sendCall_sent (dest : Addr) (i : Fin 4) (m : CallMessage) (arg : Nat) (s : State) :
    CallsSent [{ dest := dest, line := i, message := m, arg := arg }] [] [] s (s.sendCall dest (lineTag i) m arg) ∧
      s.sendCall dest (lineTag i) m arg = { s with
        queues := (s.sendCall dest (lineTag i) m arg).queues, store := (s.sendCall dest (lineTag i) m arg).store
        seqs := (s.sendCall dest (lineTag i) m arg).seqs, counters := (s.sendCall dest (lineTag i) m arg).counters
        alerts := (s.sendCall dest (lineTag i) m arg).alerts } := by
  rcases h : s.store.request .urgentOut with _ | ⟨n, st⟩
  · have hc : s.store.cellsFor 1 = ([], s.store) := by simp [Store.cellsFor, h]
    have counts := State.urgentRefused_counts s
    have latched := State.urgentRefused_latched s
    have others := fun a (k : a ≠ .cellShortage) => State.urgentRefused_other (a := a) k s
    obtain ⟨k, l, frame⟩ := State.urgentRefused_frame s
    rw [State.sendCall_refused h]
    generalize (s.count (.refusals .urgentOut)).urgentRefused = t at *
    subst frame
    refine ⟨⟨⟨?_, ?_, fun c => ?_, fun a => ?_⟩, ?_⟩, rfl⟩
    · simp [callFrames, hc]
    · simp [callFrames, hc]
    · rw [counts c]
      by_cases k : c ∈ [Counter.refusals .urgentOut, .station .urgentNotSent, .occurrence .cellShortage]
      · simp only [callFrames, List.length_map, List.length_zipIdx, List.length_cons, List.length_nil, Nat.zero_add, hc,
          if_pos k]
        rfl
      · simp only [if_neg k, List.map_nil, List.append_nil, List.not_mem_nil, if_false]
        rfl
    · by_cases k : a = .cellShortage
      · subst k
        simpa [callFrames, hc] using latched
      · simpa [k] using others a k
    · simp [hc]
  · rw [State.sendCall_granted h]
    have hc : s.store.cellsFor 1 = ([n], st) := by simp [Store.cellsFor, h]
    refine ⟨⟨⟨?_, ?_, fun c => ?_, fun a => ?_⟩, ?_⟩, rfl⟩
    · simp [callFrames, hc]
    · simp [callFrames, hc, callPayload, lineTag]
    · simp [callFrames, hc, State.counter, Nat.repeat]
    · simp [callFrames, hc, State.alert]
    · simp [hc]

end Sys2Proof.Machine
end

