-- ==== Sys2Proof/Laws/Ports.lean ====
section
/-! SUPPORT. What the line ports' receivers can do: a symbol touches the receive state of its port and the count of corrected
headers alone, and where it brings an event the receiver has begun the item that the symbol opens, or hunts. -/

namespace Sys2Proof.Machine

/-! ## Port records -/

@[simp] theorem State.port_modPort_self (p : Port) (f : PortRec → PortRec) (s : State) :
    (s.modPort p f).port p = f (s.port p) := by
  cases p <;> rfl

@[simp] theorem State.port_modPort_other {p q : Port} (h : q ≠ p) (f : PortRec → PortRec) (s : State) :
    (s.modPort p f).port q = s.port q := by
  cases p <;> cases q <;> first | rfl | exact absurd rfl h

@[simp] theorem State.receiving_setRx (p q : Port) (x : RxState) (s : State) :
    (s.setRx p x).receiving q = s.receiving q := by
  cases p <;> rfl

@[simp] theorem State.receiving_portCount (p q : Port) (c : PortCounter) (s : State) :
    (s.portCount p c).receiving q = s.receiving q := rfl

/-- Counting a corrected header touches the counters alone, and of them that one. -/
theorem State.countCorrected_eq (p : Port) (b : Bool) (s : State) :
    s.countCorrected p b = { s with counters := (s.countCorrected p b).counters } ∧
      Counts (if b then [.port p .headerCorrected] else []) s (s.countCorrected p b) := by
  cases b
  · exact ⟨rfl, Counts.refl s⟩
  · exact ⟨rfl, State.count_counts _ _⟩

/-- A change that leaves a port's record as it is changes nothing. -/
theorem State.modPort_same {p : Port} {f : PortRec → PortRec} {s : State} (h : f (s.port p) = s.port p) : s.modPort p f = s := by
  cases p <;> simp_all [State.modPort, State.port]

/-! ## Bytes on the line -/

/-- The header bytes give the header bits back (R18). -/
@[simp] theorem headerBits_headerBytes (header : BitVec 72) : headerBits (headerBytes header) = header := by
  simp only [headerBits, headerBytes, List.map, byteAt, List.getD_cons_zero, List.getD_cons_succ]
  refine BitVec.eq_of_getLsbD_eq fun i hi => ?_
  simp only [BitVec.getLsbD_append, BitVec.getLsbD_extractLsb']
  repeat' split
  all_goals
    rw [decide_eq_true (by omega), Bool.true_and]
    congr 1
    omega

/-- The CRC bytes give the CRC back (R23). -/
@[simp] theorem crcBits_crcBytes (crc : BitVec 32) : crcBits (crcBytes crc) = crc := by
  simp only [crcBits, crcBytes, List.map, byteAt, List.getD_cons_zero, List.getD_cons_succ]
  refine BitVec.eq_of_getLsbD_eq fun i hi => ?_
  simp only [BitVec.getLsbD_append, BitVec.getLsbD_extractLsb']
  repeat' split
  all_goals
    rw [decide_eq_true (by omega), Bool.true_and]
    congr 1
    omega

/-! ## One symbol -/

/-- Every header that passes has a source from 1 to 63, a fold count of 0 to 2 and a length of at most 232 (R21). -/
theorem readHeader_passes {header : BitVec 72} {f : Frame} {n : Nat} {c : Bool} (h : readHeader header = .passes f n c) :
    f.source ≠ 0 ∧ f.fold ≤ 2 ∧ n ≤ 232 := by
  have fields : ∀ {b : BitVec 64}, fieldsFrame b = some (f, n) → f.source ≠ 0 ∧ f.fold ≤ 2 ∧ n ≤ 232 := by
    intro b hb
    unfold fieldsFrame at hb
    dsimp only at hb
    split at hb
    · cases hb
    · split at hb
      · rename_i hok
        obtain ⟨rfl, rfl⟩ := Prod.mk.inj (Option.some.inj hb)
        exact hok
      · cases hb
  unfold readHeader at h
  split at h
  · cases h
  all_goals
    split at h
    · rename_i hb
      cases h
      exact fields hb
    · cases h

/-- A symbol keeps the receive state sound. -/
theorem RxState.take_sound (x : RxSymbol) {r : RxState} (h : r.sound = true) : (r.take x).rx.sound = true := by
  have after : ∀ x, (RxState.after x).sound = true := by
    intro x
    rcases x with _ | x
    · rfl
    · cases x <;> rfl
  have cut : ∀ x, (RxStep.cut x).rx.sound = true := after
  have ninth : ∀ bytes, (RxStep.ninth bytes).rx.sound = true := by
    intro bytes
    unfold RxStep.ninth
    split
    · rename_i hp
      obtain ⟨h0, h2, hn⟩ := readHeader_passes hp
      simp [RxState.sound, h2, hn]
      exact h0
    · rfl
    · rfl
  have third : ∀ bytes, (RxStep.third bytes).rx.sound = true := by
    intro bytes
    unfold RxStep.third
    split <;> rfl
  cases r with
  | hunting => exact after x
  | header bytes =>
    unfold RxState.take
    dsimp only
    split
    · split
      · simp [RxState.sound]; omega
      · exact ninth _
    · exact cut _
  | body f n c bytes =>
    unfold RxState.take
    dsimp only
    simp only [RxState.sound, Bool.and_eq_true, bne_iff_ne, decide_eq_true_eq] at h
    split
    · split
      · simp only [RxState.sound, Bool.and_eq_true, bne_iff_ne, decide_eq_true_eq, List.length_append, List.length_singleton]
        exact ⟨h.1, by omega⟩
      · exact cut _
    · split
      · exact cut _
      · rfl
    · exact cut _
  | span bytes =>
    unfold RxState.take
    dsimp only
    split
    · split
      · simp [RxState.sound]; omega
      · exact third _
    · exact after _

/-- What a symbol does: nothing at a port that gets none, and elsewhere its port's receive state and the count of corrected
headers change, and nothing else. -/
theorem State.receive_cases (p : Port) (x : RxSymbol) (s : State) :
    (s.receiving p = false ∧ s.receive p x = (none, s)) ∨
      (s.receiving p = true ∧ s.receive p x = (((s.port p).rx.take x).event,
        (s.countCorrected p ((s.port p).rx.take x).corrected).setRx p ((s.port p).rx.take x).rx)) := by
  unfold State.receive
  cases s.receiving p
  · exact .inl ⟨rfl, rfl⟩
  · exact .inr ⟨rfl, rfl⟩

theorem SameButReception.refl (s : State) : SameButReception s s := ⟨rfl, fun _ _ _ => rfl⟩

theorem SameButReception.trans {a b c : State} (hab : SameButReception a b) (hbc : SameButReception b c) :
    SameButReception a c :=
  ⟨hbc.1.trans (by rw [hab.1]), fun k hw he => (hbc.2 k hw he).trans (hab.2 k hw he)⟩

theorem State.receive_same (p : Port) (x : RxSymbol) (s : State) : SameButReception s (s.receive p x).2 := by
  rcases State.receive_cases p x s with ⟨-, h⟩ | ⟨-, h⟩
  · rw [h]
    exact SameButReception.refl s
  · rw [h]
    generalize (s.port p).rx.take x = r
    obtain ⟨he, hc⟩ := State.countCorrected_eq p r.corrected s
    refine ⟨by dsimp only; rw [he]; cases p <;> rfl, fun c hw hE => ?_⟩
    have hk := hc c
    have : c ∉ (if r.corrected then [Counter.port p .headerCorrected] else []) := by
      cases p <;> split <;> simp [hw, hE]
    rw [if_neg this] at hk
    cases p <;> exact hk

/-- A symbol keeps the receivers sound. -/
theorem State.receive_sound (p : Port) (x : RxSymbol) {s : State} (h : s.ReceiversSound) :
    (s.receive p x).2.ReceiversSound := by
  rcases State.receive_cases p x s with ⟨-, hr⟩ | ⟨hon, hr⟩
  · rwa [hr]
  · rw [hr]
    intro q hq
    have hc := (State.countCorrected_eq p ((s.port p).rx.take x).corrected s).1
    have hrec : (s.countCorrected p ((s.port p).rx.take x).corrected).receiving q = s.receiving q := by rw [hc]; rfl
    have hport : (s.countCorrected p ((s.port p).rx.take x).corrected).port q = s.port q := by rw [hc]; cases q <;> rfl
    dsimp only
    rw [State.receiving_setRx, hrec, State.setRx]
    by_cases hqp : q = p
    · subst hqp
      rw [State.port_modPort_self]
      exact ⟨RxState.take_sound x (h q hq).1, fun hoff => absurd (hon.symm.trans hoff) (by decide)⟩
    · rw [State.port_modPort_other hqp, hport]
      exact h q hq

/-! ## Several symbols -/

/-- Symbols that bring no event change receive states and the counts of corrected headers alone. -/
theorem State.receiveQuietly_same {symbols : List (Port × RxSymbol)} {s t : State} (h : s.receiveQuietly symbols = some t) :
    SameButReception s t :=
  withoutEvent_induct (R := SameButReception) SameButReception.refl SameButReception.trans
    (fun x s _ => State.receive_same x.1 x.2 s) h

theorem State.receiveAll_same (symbols : List (Port × RxSymbol)) (s : State) : SameButReception s (s.receiveAll symbols) := by
  unfold State.receiveAll
  cases h : s.receiveQuietly symbols with
  | none => exact SameButReception.refl s
  | some t => exact State.receiveQuietly_same h

/-- So do symbols of which the last brings an event. -/
theorem State.received_same {p : Port} {symbols : List RxSymbol} {s t : State} {e : PortEvent}
    (h : s.received p symbols = some (e, t)) : SameButReception s t := by
  obtain ⟨init, x, u, -, hi, hx⟩ := untilEvent_eq_some h
  have hu := State.receive_same p x u
  rw [hx] at hu
  exact (withoutEvent_induct (R := SameButReception) SameButReception.refl SameButReception.trans
    (fun x s _ => State.receive_same p x s) hi).trans hu

/-- A port that gets no symbols takes none. -/
theorem State.received_none {p : Port} (symbols : List RxSymbol) {s : State} (h : s.receiving p = false) :
    s.received p symbols = none := by
  unfold State.received
  induction symbols with
  | nil => rfl
  | cons x rest ih =>
    have hx : s.receive p x = (none, s) := by
      unfold State.receive
      rw [h]
      rfl
    rw [untilEvent_cons, hx]
    cases rest with
    | nil => rfl
    | cons y rest' => exact ih

end Sys2Proof.Machine
end

