-- ==== Sys2Proof/Tests/Slice0.lean ====
section
/-! SUPPORT. Tests: ill-formed commands that the check refuses, one small step for each command with the result that the
manual gives, and for each statement with hypotheses states that meet them, clause by clause. -/

namespace Sys2Proof.Tests

open Sys2Proof Sys2Proof.Machine

set_option maxRecDepth 8000

/-- The characters of a message, each without a framing error (R13). -/
def spelt (kind tag : Byte) (body : List Byte) : List LinkChar :=
  let checked := [kind, tag, BitVec.ofNat 8 body.length] ++ body
  ([0x7E] ++ checked ++ wordBytes (crc16 checked)).map (fun b => { value := b })

/-- The symbols of a frame up to the end of its header (R18). -/
def headOf (header : BitVec 72) : List RxSymbol := [some .frameStart] ++ dataSymbols (headerBytes header)

/-- The symbols of a frame of length 0 with the given header. -/
def lineOf (header : BitVec 72) : List RxSymbol := frameSymbols (headOf header) [] []

/-- The symbols of a span word up to its content's last, and all of them (R18). -/
def spanHead (content : BitVec 16) : List RxSymbol := [some .spanStart] ++ dataSymbols (wordBytes content)
def spanWordOf (content : BitVec 16) : List RxSymbol := spanSymbols (spanHead content) (spanCheck content)

/-- What symbols bring at WEST, and the state that their reception leaves. -/
def brought (x : List RxSymbol) (s : State) : Option PortEvent := (s.received .west x).map Prod.fst
def left (x : List RxSymbol) (s : State) : State := ((s.received .west x).map Prod.snd).getD s

/-! ## Ill-formed commands -/

theorem test_image_of_119_bytes_ill_formed :
    Instr.wellFormed (.readAttemptDone { bytes := List.replicate 119 0 }) = false := by decide

theorem test_messages_without_characters_ill_formed :
    ∀ i ∈ [Instr.linkMessageMalformed .toll [], .linkMessageUnknown .sign [], .linkOverrun .weather [], .record [],
      .sample [], .shown [], .signFault [], .command [], .request []], i.wellFormed = false := by decide

theorem test_items_ill_formed :
    ∀ i ∈ [Instr.rxFrameComplete .west [] (List.replicate 233 0) [], .rxFrameComplete .west [] [] (List.replicate 5 0),
      .spanWordInvalid .west []], i.wellFormed = false := by decide

theorem test_highway_periods_ill_formed :
    Instr.wellFormed (.highwayMarkedFrame 0 (List.replicate 16 {})) = false ∧
      Instr.wellFormed (.highwayMarkedFrame 16 (List.replicate 15 {})) = false ∧
      Instr.wellFormed (.highwayMarkedFrame 16 (List.replicate 16 { samples := [0] })) = false := by decide

theorem test_station_0_ill_formed :
    Instr.wellFormed (.waitingRefreshExpiry 0 1) = false ∧ Instr.wellFormed (.holdbackEntryExpiry 0) = false := by decide

theorem test_well_formed_commands :
    Instr.wellFormed (.highwayMarkedFrame 16 (List.replicate 16 {})) = true ∧
      Instr.wellFormed (.readAttemptDone { released := none, bytes := [] }) = true ∧
      Instr.wellFormed (.rxFrameComplete .west [] (List.replicate 232 0) (List.replicate 4 0)) = true ∧
      Instr.wellFormed (.spanWordInvalid .west [none]) = true ∧
      Instr.wellFormed (.record (spelt 1 0 [])) = true ∧ Instr.wellFormed (.linePulse {}) = true := by decide

/-! ## Small states -/

/-- Station 4 in RUNNING with the given roles and everything else as at reset. -/
def at_ (r : Roles) : State :=
  { State.reset with
    start := .running
    image :=
      { address := 4, roles := r, phonePrimary := 9, tollPrimary := 9, weatherPrimary := 9, maintenance := 7
        zoneStations := [4, 0, 0, 0], incidentPattern := 5 } }

def bare : State := at_ {}
def roadside : State := at_ { phone := .roadside }
def board : State := at_ { phone := .switchboard }
def reader : State := at_ { toll := .reader }
def collector : State := at_ { toll := .collector }
def weather : State := at_ { weather := .station }
def signs : State := at_ { sign := .signs, signCount := 2 }
def centre : State := at_ { sign := .centre }

/-- A store with no free cell. -/
def drained (s : State) : State := { s with store := { s.store with free := [] } }

def withLine (l : Line) (s : State) : State := { s with phone := { s.phone with lines := [(1, l)] } }
def withChannel (r : Channel) (s : State) : State := { s with switchboard := { s.switchboard with channels := [(0, r)] } }
def withWaiting (w : List Waiting) (s : State) : State := { s with switchboard := { s.switchboard with waiting := w } }
def withSign (r : SignRec) (s : State) : State := { s with signs := { s.signs with records := [(1, r)] } }
def withWest (r : PortRec) (s : State) : State := { s with west := r }
def withEast (r : PortRec) (s : State) : State := { s with east := r }
def withJob (c : JobCommand) (st : JobStage) (s : State) : State :=
  { s with maint := { s.maint with slot := some { command := c, requester := .serviceLink, tag := 8, stage := st } } }
def withQueues (q : Queues) (s : State) : State := { s with queues := q }

/-- A part of the state that a command leaves. -/
def after {α : Type} (c : Instr) (s : State) (f : State → α) : Option α :=
  match exec c s with
  | .next t => some (f t)
  | .fault _ => none
  | .refused _ => none

def receiving (f : Fate) (s : State) : State :=
  { s with links := s.links.set .toll { rx := .receiving f [1, 0], gap := { left := 0, due := true } } }

/-- A reader that holds 96 records, whose ready output is low (R15). -/
def full : State :=
  { reader with journal := { entries := (List.range 96).map (fun n =>
      { seq := BitVec.ofNat 16 n, readerTag := BitVec.ofNat 32 (n + 100), record := List.replicate 16 0, cell := 20 }) } }

/-- The instant before the first sample pulse. -/
def at_19 (s : State) : State := { s with timebase := 0x7FFFF }

def fired : Timer := { left := 0, due := true }
def up : PortRec := { link := .up, hearing := true }
def aFrame : Frame := { kind := .presence, source := 5, dest := 0 }
def aHeld : Held := { frame := aFrame, cell := 17, user := .transitRise }
def aCall : Held := { frame := { kind := .call, source := 4, dest := 9 }, cell := 17, user := .urgentOut }
def anEntry : JournalEntry :=
  { seq := 3, readerTag := 77, record := List.replicate 16 0, state := .inFlight, attempts := 1, cell := 20 }
def party : Party := { station := 6, line := 2 }
def anImage : List Byte := [4] ++ List.replicate 118 0 ++ [251]
def aRecord : List Byte := [0, 0, 0, 9] ++ List.replicate 12 1

/-! ## One step of each command -/

theorem test_fullReset : after .fullReset roadside (fun t => (t.start, t.image.address)) = some (.held, 0) := by decide

theorem test_resetRelease : after .resetRelease State.reset (·.start) = some .reading := by decide

/-- R3: the sum 4 + 251 is 255 and the address 4 lies from 1 to 63. -/
theorem test_readAttemptDone :
    after (.readAttemptDone { bytes := anImage }) { State.reset with start := .reading } (fun t => (t.start, t.image.address)) =
      some (.running, 4) := by decide

/-- R6: the sum 4 + 250 is not 255. -/
theorem test_readAttemptDone_bad_sum :
    after (.readAttemptDone { bytes := [4] ++ List.replicate 118 0 ++ [250] }) { State.reset with start := .reading }
      (fun t => (t.start, t.image.address, (t.alert .configFault).latched)) = some (.transparent, 0, true) := by decide

theorem test_readRetryPauseEnd :
    after .readRetryPauseEnd { State.reset with start := .reading, loader := { fails := 1, paused := true } } (·.loader) =
      some { fails := 1 } := by decide

/-- R9: bit 9 first goes to 1 at 512. -/
theorem test_linePulse : after (.linePulse {}) bare (fun t => (t.timebase, t.west.owesSpan)) = some (512, true) := by decide

/-- R9: from 7680 to 8704, where bit 9 next rises, bit 13 rises at 8192: that service pulse samples ACK_N. -/
theorem test_linePulse_leaves_no_pulse_out :
    after (.linePulse {}) { bare with timebase := 7680, pins := { ackLow := true } } (fun t => (t.timebase, t.maint.ackRun)) =
      some (8704, 1) := by decide

/-- R199: the second low sample in a row counts ACKS. -/
theorem test_ackSample :
    after (.ackSample true) { bare with maint := { ackRun := 1 } } (fun t => (t.maint.ackRun, t.counter (.station .acks))) =
      some (2, 1) := by decide

theorem test_sampleWork :
    after .sampleWork (at_19 weather) (fun t => (t.weather.stats.samples, t.counter (.station .samplesAbsent))) = some (1, 1) := by
  decide

def wind10 : State :=
  { weather with weather := { weather.weather with
      quantities := { weather.weather.quantities with w := { live := true, accepted := some 12, missing := 9 } }
      gusts := [5] } }

/-- R164: the tenth missing value makes a quantity STALE, and a stale wind empties the gust window. -/
theorem test_staleLimitReached :
    after (.staleLimitReached .w) wind10 (fun t => (t.weather.quantities.w.live, t.weather.gusts)) = some (false, []) := by
  decide

def ice (r : ConditionRec) : State :=
  { weather with weather := { weather.weather with conditions := { weather.weather.conditions with ice := r } } }
def iceRising : State := ice { flag := .valid, severity := some 25, up := 2 }
def iceFalling : State := ice { flag := .valid, severity := some 5, level := 2, down := 29 }
def iceHeld : State := ice { flag := .held, level := 2, held := 599 }

/-- R169: severity 25 reaches the thresholds 0 and 20, and the third pulse in a row raises the level to 2. -/
theorem test_levelRise :
    after (.levelRise .ice) iceRising (fun t => t.weather.conditions.ice.level) = some 2 := by decide

/-- R169: severity 5 is below 20 - 10. -/
theorem test_levelFall :
    after (.levelFall .ice) iceFalling (fun t => t.weather.conditions.ice.level) = some 1 := by decide

theorem test_staleClear :
    after (.staleClear .ice) iceHeld (fun t => (t.weather.conditions.ice.level, t.weather.conditions.ice.flag)) =
      some (0, .unknown) := by decide

theorem test_linkMessageMalformed :
    after (.linkMessageMalformed .service [{ value := 0x7E, framing := true }]) bare (fun t => t.counter (.link .service .malformed)) = some 1 := by decide

theorem test_linkGapTimeout :
    after (.linkGapTimeout .toll) (receiving .handed reader) (fun t => t.counter (.link .toll .malformed)) = some 1 := by decide

theorem test_linkMessageUnknown :
    after (.linkMessageUnknown .toll (spelt 0x31 0 [])) reader (fun t => t.counter (.link .toll .unknown)) = some 1 := by decide

theorem test_linkOverrun : after (.linkOverrun .toll (spelt 1 0 aRecord)) full (fun t => t.counter (.link .toll .overrun)) = some 1 := by
  decide

def withNotice (sending : Bool) : State :=
  { reader with links := reader.links.set .toll { queue := [{ kind := 3, body := [1], holder := .notice }], sending := sending } }

theorem test_linkReadyInHigh : after (.linkReadyInHigh .toll true) (withNotice false) (fun t => (t.link .toll).sending) =
    some true := by decide

theorem test_linkMessageSent : after (.linkMessageSent .toll) (withNotice true) (fun t => (t.link .toll).queue) = some [] := by
  decide

theorem test_record :
    after (.record (spelt 1 0 aRecord)) reader (fun t => t.journal.entries.map (fun e => (e.seq, e.readerTag, e.cell))) =
      some [(0, 9, 0)] := by decide

/-- R143: 15 bytes are too few; the tag of the notice comes from the first four. -/
theorem test_record_short :
    after (.record (spelt 1 0 (List.replicate 15 2))) reader (fun t => (t.link .toll).queue.map (·.body)) = some [[2, 2, 2, 2, 1]] := by
  decide

theorem test_sample : after (.sample (spelt 0x21 0 (List.replicate 12 1))) weather (fun t => t.weather.pendingSample.isSome) = some true := by
  decide

def showing (h : Handover) : SignRec :=
  { handover := h, outstanding := some { number := 6, selection := .blank, body := [] }, showCounter := 6 }

theorem test_shown : after (.shown (spelt 0x12 0 [1, 6])) (withSign (showing .awaiting) signs) (fun t => (t.sign 1).handover) = some .idle := by
  decide

/-- R184: the show number returns from 255 to 1. -/
theorem test_signFault :
    after (.signFault (spelt 0x13 0 [1, 0])) (withSign { showCounter := 255 } signs) (fun t => ((t.sign 1).fault, (t.sign 1).showCounter)) =
      some (true, 1) := by decide

theorem test_command :
    after (.command (spelt 0x14 9 [0x46, 2, 15, 0, 1])) centre (fun t => t.queues.localClass2.map (fun h =>
      (h.frame.dest, h.frame.group, h.frame.tag, h.frame.payload))) = some [(6, true, 9, [2, 15, 0, 1])] := by decide

theorem test_request : after (.request (spelt 0x31 8 [0, 2, 0, 0])) bare (fun t => t.maint.slot.map (·.command)) =
    some (some .clearAlerts) := by decide

/-- R193: the JOURNAL section of a station with no toll role has no content: one empty part, last of section and of
reply. -/
theorem test_read :
    after .read (withJob (.read [3]) .taken bare) (fun t => (t.link .service).queue.map (·.body)) =
      some [[4, 3, 0, 3, 0, 0, 0]] := by decide

def latched : State := { bare with alerts := [(.portWarning, { latched := true, time := 5 })] }

theorem test_clearAlerts :
    after .clearAlerts (withJob .clearAlerts .taken latched) (fun t => (t.alert .portWarning, (t.link .service).queue.map (·.body))) =
      some ({ latched := false, time := 5 }, [[4, 8, 1]]) := by decide

theorem test_clearCounters :
    after .clearCounters (withJob .clearCounters .taken { bare with counters := [(.station .acks, 3)] })
      (fun t => t.counter (.station .acks)) = some 0 := by decide

theorem test_serviceRestart : after .serviceRestart (withJob .serviceRestart .taken bare) (·.start) = some .reReading := by
  decide

theorem test_replyPartResume :
    after .replyPartResume (withJob .serviceRestart (.answering .taken) bare) (fun t => (t.maint.slot, (t.link .service).queue.length)) =
      some (none, 1) := by decide

theorem test_remoteRequestPlaced :
    after .remoteRequestPlaced (withJob .clearAlerts (.remote 9 [9, 2, 0, 0]) bare) (fun t =>
      (t.maint.slot, t.maint.wait.map (·.target), t.queues.localClass2.map (·.frame.payload))) =
      some (none, some 9, [[1, 9, 2, 0, 0]]) := by decide

/-- R200, 13.4: the section set of a CLEAR_COUNTERS is not used and goes as 0; of a READ the bits 0 to 8 go. -/
theorem test_remote_request_unused_set :
    after (.request (spelt 0x31 8 [9, 3, 0xFF, 0xFF])) bare (fun t => t.queues.localClass2.map (·.frame.payload)) =
      some [[1, 9, 3, 0, 0]] ∧
    after (.request (spelt 0x31 8 [9, 1, 0xFF, 0xFF])) bare (fun t => t.queues.localClass2.map (·.frame.payload)) =
      some [[1, 9, 1, 1, 0xFF]] := by decide

def waiting : State := { bare with maint := { wait := some { target := 9, tag := 3, timer := fired } } }

/-- 13.4: ANSWER holds the station, the tag of the request and the result, 3 for TIMEOUT. -/
theorem test_remoteWaitExpiry :
    after .remoteWaitExpiry waiting (fun t => (t.link .service).queue.map (·.body)) = some [[9, 3, 3]] := by decide

theorem test_rxFrameComplete :
    after (.rxFrameComplete .west (headOf 0x714000000000000045) [] []) (withEast up (withWest up bare))
      (fun t => t.queues.riseOrdinary.map (fun h => (h.frame.source, h.frame.hops, h.cell))) = some [(5, 1, 0)] := by decide

/-- 13.2, R201: kind 7, source 5, dest 0 and zeros make the bytes 0x71, 0x40, 0x00 …. The field bits at 1 are d62, d61,
d60, d56 and d54, at the code positions 70, 69, 68, 63 and 61, whose numbers add without carry to 69: c6 to c0 are 1000101.
With eight bits at 1, p is 0. -/
theorem test_frameHeader : frameHeader aFrame = 0x714000000000000045 := by decide

theorem test_rxFrameDiscarded :
    after (.rxFrameDiscarded .west [some .frameStart] (some .idle)) bare (fun t =>
      (t.west.score, t.counter (.port .west .delimiterErrors))) = some (6, 1) := by decide

/-- R19, R22: the SPAN_START that ends a frame begins a span word, which goes on at the next line pulse; the symbols that come
later end it. -/
theorem test_receiver_goes_on :
    after (.rxFrameDiscarded .west [some .frameStart, some (.data 9)] (some .spanStart)) bare (·.west.rx) = some (.span []) ∧
    after (.linePulse { symbols := [(.west, some (.data 0x15))] }) (withWest { rx := .span [] } bare) (·.west.rx) = some (.span [0x15]) ∧
    after (.spanWordReceived .west [some (.data 0)] (spanCheck 0x1500)) (withWest { rx := .span [0x15] } bare)
      (fun t => (t.west.rx, t.west.neighbour)) = some (.hunting, 5) := by decide

/-- R19: a span word in HEADER is a delimiter error and no span word. -/
theorem test_span_word_in_header :
    after (.spanWordReceived .west (spanHead 0x1500) (spanCheck 0x1500)) (withWest { rx := .header [] } bare) (·.west.neighbour) =
      some 0 ∧
    after (.rxFrameDiscarded .west [] (some .spanStart)) (withWest { rx := .header [] } bare) (fun t =>
      (t.west.rx, t.counter (.port .west .delimiterErrors))) = some (.span [], 1) := by decide

/-- R25, 13.3: station 5, READY, no fault is 0x15 0x00; the link settles. -/
theorem test_spanWordReceived :
    spanContent 5 .ready false = 0x1500 ∧
    after (.spanWordReceived .east (spanHead 0x1500) (spanCheck 0x1500)) bare (fun t => (t.east.link, t.east.neighbour)) =
      some (.settling, 5) := by decide

theorem test_spanWordInvalid :
    after (.spanWordInvalid .east [some .spanStart, some .idle]) bare (fun t => (t.east.score, t.counter (.port .east .spanErrors))) = some (6, 1) := by
  decide

/-- R32: 90 + 6 reaches the warning threshold of 96. -/
theorem test_lineCodeError :
    after (.lineCodeError .west) (withWest { score := 90 } bare) (fun t => (t.west.score, t.west.errorState)) =
      some (96, .warning) := by decide

theorem test_signalLoss :
    after (.signalLoss .west [some .frameStart, some (.data 0x71)] []) bare (fun t => (t.west.rx, t.west.score, t.pins.signalWest)) =
      some (.hunting, 6, false) := by decide

theorem test_signalRise :
    after (.signalRise .west) { bare with pins := { signalWest := false } } (fun t => t.pins.signalWest) = some true := by decide

theorem test_spanWordSent :
    after (.spanWordSent .west) (withWest { tx := .span 0, owesSpan := true } bare) (fun t => (t.west.tx, t.west.owesSpan)) =
      some (.idle, false) := by decide

theorem test_frameSent :
    after (.frameSent .east) (withEast { up with tx := .frame aHeld } bare) (fun t => (t.east.tx, t.store.free.getLast?)) =
      some (.idle, some 17) := by decide

/-- R65: a local URGENT frame goes before RISE ordinary transit. -/
theorem test_arbiterChoice :
    after (.arbiterChoice .rise) (withQueues { localUrgent := [aCall], riseOrdinary := [aHeld] } (withEast up bare))
      (fun t => t.east.tx) = some (.frame aCall) := by decide

def sendable : State := { reader with journal := { entries := [{ anEntry with state := .waiting }] } }

theorem test_sendPass :
    after .sendPass sendable (fun t => (t.journal.entries.map (·.state), t.returns.map (·.tag),
      t.queues.localToll.map (fun h => (h.frame.dest, h.cell)))) = some ([.inFlight], [1], [(9, 20)]) := by decide

theorem test_lossTimerExpiry :
    after (.lossTimerExpiry .west) (withWest { up with loss := fired } bare) (fun t => (t.west.link, t.west.cause)) =
      some (.down, .loss) := by decide

/-- R30: the frame on the wire is abandoned with ABORT, and IDLE follows. -/
theorem test_lossTimerExpiry_aborts :
    after (.lossTimerExpiry .west) (withWest { up with loss := fired, tx := .frame aHeld } bare) (·.west.line) =
      some [.abort, .idle] := by decide

theorem test_holdOffExpiry :
    after (.holdOffExpiry .west) (withWest { link := .settling, holdOff := fired } bare) (fun t => t.west.link) =
      some .joining := by decide

theorem test_recoveryTimerExpiry :
    after (.recoveryTimerExpiry .west)
      (withWest { link := .isolated, errorState := .isolated, score := 240, recovery := fired } bare)
      (fun t => (t.west.link, t.west.score, t.west.errorState)) = some (.settling, 0, .active) := by decide

theorem test_foldedLineTimeEnd :
    after (.foldedLineTimeEnd .east) (withEast { lineWait := some 11 } bare) (fun t => t.east.lineWait) = some none := by
  decide

def inFlight (st : StartState) : State :=
  { reader with
    start := st, journal := { entries := [anEntry] }
    returns := [{ kind := .toll, seq := 3, tag := 0, phase := .awaiting, deadline := fired }] }

/-- R72, R149: a lost attempt goes back to WAITING, eligible at once. -/
theorem test_returnDeadlineExpiry :
    after (.returnDeadlineExpiry .toll 3 0) (inFlight .running) (fun t => (t.returns, t.journal.entries.map (·.state))) =
      some ([], [.waiting]) := by decide

def starving : State := { bare with holdback := { starvation := fired, repeating := fired, period := fired, inserted := 3 } }

/-- R87: the HOLDBACK carries the holdback quota, 4 by default, as its tag. -/
theorem test_starvationTimerExpiry :
    after .starvationTimerExpiry starving (fun t => (t.holdback.starved, t.queues.localUrgent.map (fun h => (h.frame.kind, h.frame.tag)))) =
      some (true, [(.holdback, 4)]) := by decide

theorem test_holdbackRepeatExpiry :
    after .holdbackRepeatExpiry starving (fun t => t.queues.localUrgent.length) = some 1 := by decide

def heldBack : State :=
  { bare with holdback := { entries := [{ originator := 5, quota := 2, expiry := fired, armed := 0 }], inserted := 2 } }

theorem test_holdbackEntryExpiry : after (.holdbackEntryExpiry 5) heldBack (fun t => t.holdback.entries) = some [] := by decide

theorem test_holdbackPeriodExpiry : after .holdbackPeriodExpiry starving (fun t => t.holdback.inserted) = some 0 := by decide

def aging (age : Nat) : State :=
  { bare with peers := { timer := { fired with reload := 32, left := 32 }, entries := [(5, { state := .present, age := age })] } }

/-- R94: the fourth expiry without a sighting makes a peer LOST. -/
theorem test_presenceTimerExpiry :
    after .presenceTimerExpiry (aging 3) (fun t => ((t.peer 5).state, t.queues.localClass2.map (·.frame.kind))) =
      some (.lost, [.presence]) := by decide

def octets (cmd : Byte) : List HwChannel := List.replicate 16 { cmd := cmd }
def inStep (s : State) : State := { s with phone := { s.phone with inStep := true, loss := fired } }

/-- R108: the off-hook sample that begins HOOK_CHECK counts as the first. -/
theorem test_highwayMarkedFrame :
    after (.highwayMarkedFrame 16 (octets 1)) (inStep roadside) (fun t => ((t.line 1).state, (t.line 1).offRun)) =
      some (.hookCheck, 1) := by decide

/-- R127: a channel that has just begun TALKING sends no VOICE frame for the period that ends. -/
theorem test_highwayMarkedFrame_voice_from_next_period :
    let talks (v : Bool) := inStep (withChannel { state := .talking, party := some party, voicing := v } board)
    after (.highwayMarkedFrame 16 (octets 0)) (talks false) (fun t => (t.queues.localUrgent.length, (t.channel 0).voicing)) =
      some (0, true) ∧
    after (.highwayMarkedFrame 16 (octets 0)) (talks true) (fun t => t.queues.localUrgent.map (·.frame.kind)) =
      some [.voice] := by decide

theorem test_highwayLossTimerExpiry :
    after .highwayLossTimerExpiry (inStep (withLine { state := .queued, partner := some 9 } roadside))
      (fun t => (t.phone.inStep, (t.line 1).state, t.queues.localUrgent.map (·.frame.payload))) =
      some (false, .idle, [[5, 0]]) := by decide

theorem test_hookCheckPassed :
    after (.hookCheckPassed 1) (withLine { state := .hookCheck, offRun := 5 } roadside)
      (fun t => ((t.line 1).state, t.queues.localUrgent.map (fun h => (h.frame.dest, h.frame.tag, h.frame.payload)))) =
      some (.requesting, [(9, 1, [1, 0])]) := by decide

theorem test_hangUp :
    after (.hangUp 1) (withLine { state := .talking, partner := some 9, onRun := 25 } roadside) (fun t => (t.line 1).state) =
      some .clearing := by decide

theorem test_lineAnswer :
    after (.lineAnswer 1) (withLine { state := .ringing, partner := some 9, offRun := 5 } roadside)
      (fun t => ((t.line 1).state, t.queues.localUrgent.map (·.frame.payload))) = some (.talking, [[10, 0]]) := by decide

theorem test_setupRetryExpiry :
    after (.setupRetryExpiry 1) (withLine { state := .requesting, retry := { fired with left := 8, reload := 8 } } roadside)
      (fun t => t.queues.localUrgent.map (·.frame.payload)) = some [[1, 0]] := by decide

theorem test_lineSupervisionExpiry :
    after (.lineSupervisionExpiry 1) (withLine { state := .talking, partner := some 9, supervision := fired } roadside)
      (fun t => ((t.line 1).state, (t.line 1).reestablishing, (t.line 1).tone)) =
      some (.requesting, true, .unavailable) := by decide

/-- R115: the fourth repeat ends the clearing. -/
theorem test_lineClearingExpiry :
    after (.lineClearingExpiry 1) (withLine { state := .clearing, partner := some 9, clearing := fired, repeats := 3 } roadside)
      (fun t => ((t.line 1).state, t.queues.localUrgent.length)) = some (.idle, 1) := by decide

theorem test_lineRingTimeout :
    after (.lineRingTimeout 1) (withLine { state := .ringing, partner := some 9, ring := fired } roadside)
      (fun t => ((t.line 1).state, t.queues.localUrgent.map (·.frame.payload))) = some (.idle, [[5, 0]]) := by decide

theorem test_consoleOpen :
    after (.consoleOpen 0) (withChannel { takenCmd := some .openChannel } (withWaiting [{ party := party, arrival := 3 }] board))
      (fun t => ((t.channel 0).state, (t.channel 0).party, t.switchboard.waiting)) = some (.offered, some party, []) := by
  decide

theorem test_consoleClose :
    after (.consoleClose 0)
      (withChannel { takenCmd := some .closeChannel, state := .offered, party := some party, arrival := some 3 }
        (withWaiting [{ party := { party with line := 3 }, arrival := 4 }] board))
      (fun t => ((t.channel 0).state, t.switchboard.waiting.map (·.arrival))) = some (.closed, [3, 4]) := by decide

theorem test_consoleAnswer :
    after (.consoleAnswer 0) (withChannel { takenCmd := some .answer, state := .offered, party := some party } board)
      (fun t => ((t.channel 0).state, t.queues.localUrgent.map (fun h => (h.frame.dest, h.frame.tag, h.frame.payload)))) =
      some (.talking, [(6, 2, [4, 0])]) := by decide

/-- R127: VOICE begins with the period after the one that took the command, which is the one in progress. -/
theorem test_consoleAnswer_voice_at_once :
    after (.consoleAnswer 0) (withChannel { takenCmd := some .answer, state := .offered, party := some party } board)
      (fun t => (t.channel 0).voicing) = some true := by decide

theorem test_consoleRelease :
    after (.consoleRelease 0) (withChannel { takenCmd := some .release, state := .talking, party := some party } board)
      (fun t => ((t.channel 0).state, t.queues.localUrgent.map (·.frame.payload))) = some (.clearing, [[5, 0]]) := by decide

/-- R126: 0x1A names station 6, line 2. -/
theorem test_consoleCallback :
    after (.consoleCallback 0) (withChannel { takenCmd := some .callback, takenArg := 0x1A, state := .free } board)
      (fun t => ((t.channel 0).state, (t.channel 0).party)) = some (.callingBack, some party) := by decide

theorem test_offerRefreshExpiry :
    after (.offerRefreshExpiry 0) (withChannel { state := .offered, party := some party, refresh := fired } board)
      (fun t => t.queues.localUrgent.map (·.frame.payload)) = some [[2, 0]] := by decide

theorem test_waitingRefreshExpiry :
    after (.waitingRefreshExpiry 6 2) (withWaiting [{ party := party, arrival := 3, refresh := fired }] board)
      (fun t => t.queues.localUrgent.map (·.frame.payload)) = some [[3, 1]] := by decide

theorem test_channelSupervisionExpiry :
    after (.channelSupervisionExpiry 0) (withChannel { state := .talking, party := some party, supervision := fired } board)
      (fun t => (t.channel 0).state) = some .clearing := by decide

theorem test_callbackRingExpiry :
    after (.callbackRingExpiry 0) (withChannel { state := .callingBack, party := some party, ring := fired } board)
      (fun t => t.queues.localUrgent.map (·.frame.payload)) = some [[7, 0]] := by decide

theorem test_channelClearingExpiry :
    after (.channelClearingExpiry 0) (withChannel { state := .clearing, party := some party, clearing := fired, repeats := 3 } board)
      (fun t => (t.channel 0).state) = some .free := by decide

def backing : State := { reader with journal := { entries := [{ anEntry with state := .waiting, backoff := fired }] } }

theorem test_backoffTimerExpiry :
    after (.backoffTimerExpiry 3) backing (fun t => t.journal.entries.map (·.backoff.running)) = some [false] := by decide

def parked : State := { reader with journal := { entries := [{ anEntry with state := .parked }], park := fired } }

theorem test_parkTimerExpiry : after .parkTimerExpiry parked (fun t => t.journal.due) = some (some 3) := by decide

def reporting : State := { weather with weather := { weather.weather with report := fired } }

theorem test_reportTimerExpiry :
    after .reportTimerExpiry reporting (fun t => t.queues.localWeather.map (fun h => (h.frame.dest, h.frame.payload.length))) =
      some [(9, 28)] := by decide

/-- R186: the third timeout of an OK sign makes it FAULT. -/
theorem test_showRetryExpiry :
    after (.showRetryExpiry 1) (withSign { showing .awaiting with retry := fired, timeouts := 2 } signs)
      (fun t => ((t.sign 1).fault, (t.sign 1).handover)) = some (true, .sending) := by decide

def centreEntry : CentreEntry := { identity := 0, id := 3, priority := 4, text := [65], lifetime := fired }

theorem test_centreLifetimeExpiry :
    after (.centreLifetimeExpiry 1) (withSign { centre := some centreEntry, selection := .centre 0 } signs)
      (fun t => ((t.sign 1).centre, (t.sign 1).selection)) = some (none, .blank) := by decide

theorem test_testDurationExpiry :
    after (.testDurationExpiry 1)
      (withSign { centre := some centreEntry, test := some { pattern := 2, duration := fired }, selection := .test 2 } signs)
      (fun t => (t.sign 1).selection) = some (.centre 0) := by decide

def incident (st : IncidentState) : State := { signs with signs := { signs.signs with incident := st, incidentTimer := fired } }

theorem test_incidentTimerExpiry :
    after .incidentTimerExpiry (incident .rising) (fun t => (t.signs.incident, (t.sign 0).selection)) =
      some (.active, .incident 5) := by decide

def holding : State := { centre with signs := { centre.signs with buffer := some (9, [6, 2, 15, 0, 1]) } }

theorem test_heldCommandRetry :
    after .heldCommandRetry holding (fun t => (t.signs.buffer, t.queues.localClass2.map (·.frame.dest))) = some (none, [6]) := by
  decide

/-! ## Further rules on fixed values -/

/-- R201: one wrong bit is put right, two are found. -/
theorem test_header_code :
    let h := frameHeader { kind := .toll, source := 5, dest := 9, hops := 3, seq := 258, tag := 7, payload := [1, 2] }
    readHeader h = .passes { kind := .toll, source := 5, dest := 9, hops := 3, seq := 258, tag := 7 } 2 false ∧
      readHeader (h ^^^ 0x100000) = .passes { kind := .toll, source := 5, dest := 9, hops := 3, seq := 258, tag := 7 } 2 true ∧
      readHeader (h ^^^ 0x100001) = .discarded := by decide

/-- R12, R200: the start marker 0x7E, least significant bit first, between its start bit and its stop bit. -/
theorem test_character_bits :
    charBits { value := 0x7E } = [false, false, true, true, true, true, true, true, false, true] := by decide

/-- R174, R200: the levels of LEVELS with their spare bits 0. -/
theorem test_levels_spare_bits :
    ((bare.homeConditionCopy { aFrame with payload := [0xF1, 0x26, 0x18] }).2.link .weather).queue.map (·.body) =
      [[5, 0, 0, 0x01, 0x06, 0x08]] := by decide

/-- The figures of 10.11, and the gusts of 10.12. -/
theorem test_severities :
    (let live (x : Int) : QuantityRec := { live := true, smoothed := x * 256 }
     let ice (h : QuantityRec) : Option Int := severity 20 ⟨live 20, live 5, h, {}, {}⟩ true [] .ice
     (ice (live 180), ice {}, ice (live 90)) = (some 45, some 45, some (-200))) ∧
    (gust [180], gust [210, 180], gust [240, 210, 180], gust [230, 240, 210]) =
      (some 180, some 195, some 210, some 227) := by decide

/-- The check value of CRC-32/BZIP2 over "123456789": the CRC of R23. -/
theorem test_crc32 : crc32 [0x31, 0x32, 0x33, 0x34, 0x35, 0x36, 0x37, 0x38, 0x39] = 0xFC891918 := by decide

/-- The check value of CRC-16/CCITT-FALSE: the CRC of R13. -/
theorem test_crc16 : crc16 [0x31, 0x32, 0x33, 0x34, 0x35, 0x36, 0x37, 0x38, 0x39] = 0x29B1 := by decide

/-- The check value of CRC-8: the check byte of R25. -/
theorem test_crc8 : crc8 [0x31, 0x32, 0x33, 0x34, 0x35, 0x36, 0x37, 0x38, 0x39] = 0xF4 := by decide

theorem test_step_takes_the_front :
    (match step { State.reset with pending := [.resetRelease, .linePulse {}] } with
      | .next t => some (t.start, t.pending)
      | _ => none) = some (.reading, [.linePulse {}]) := by decide

/-! ## States that meet the hypotheses of the statements, clause by clause -/

theorem hears_of {l : Link} {chars : List LinkChar} {e : LinkEvent} {s : State}
    (h : (s.heard l chars).map Prod.fst = some e) : Hears l chars e s := by
  obtain ⟨⟨f, t⟩, hx, rfl⟩ := Option.map_eq_some_iff.mp h
  exact ⟨t, hx⟩

def at_time (t : BitVec 24) (s : State) : State := { s with timebase := t }

theorem witness_StepTakesTheFrontCommand :
    (State.reset.pending = [] ∧ State.reset.start = .held) ∧
    (bare.pending = [] ∧ bare.start = .running ∧
      ∀ n ∈ [bare.image.lineBit, bare.image.serviceBit, bare.image.sampleBit],
        (bare.timebase + 1).toNat % 2 ^ (n + 1) ≠ 2 ^ n) ∧
    ((at_time 511 bare).PulseNext .line ∧ (at_time 511 bare).until .line = 1) ∧
    ((at_time 8191 bare).PulseNext .service ∧ (at_time 8191 bare).until .service = 1) ∧
    (at_19 bare).PulseNext .sample ∧ (at_19 bare).until .sample = 1 := by decide

theorem witness_WhatChangesTheMachine :
    ((∃ t, exec .sendPass bare = .next t) ∧ ¬ Starting .sendPass ∧ ¬ Pulsing .sendPass ∧ ¬ Presenting .sendPass) ∧
    ∃ t, exec .resetRelease State.reset = .next t ∧ t.start ≠ State.reset.start :=
  ⟨⟨⟨_, rfl⟩, by simp [Starting], by simp [Pulsing], by simp [Presenting]⟩, _, rfl, by decide⟩

def readingState (fails : Nat) (paused : Bool) : State :=
  { State.reset with start := .reading, loader := { fails := fails, paused := paused } }
def restarting (s : State) : State := { withJob .serviceRestart .restarting s with start := .reReading }
def anAnswer : BusAnswers := { bytes := anImage }

theorem witness_ResetReleaseAndReadAttempts :
    State.reset.start = .held ∧
    (∀ s ∈ [readingState 0 false, readingState 1 false, restarting bare],
      (s.start = .reading ∨ s.start = .reReading) ∧ s.loader.paused = false ∧ s.loader.fails < 2) ∧
    (∀ a ∈ [{ anAnswer with released := none }, { anAnswer with writeAck := false }, { anAnswer with wordAck := false },
      { anAnswer with readAck := false }], BusFails a) ∧
    ((readingState 1 true).start = .reading ∧ (readingState 1 true).loader.paused = true) ∧
    ((9 : Fin 10) ≠ 0 ∧ { anAnswer with released := some 9 }.released = some 9 ∧ anAnswer.released = some 0 ∧
      anAnswer.writeAck = true ∧ anAnswer.wordAck = true ∧ anAnswer.readAck = true) := by decide

theorem witness_ImageReadEndsTheReset :
    ((readingState 1 false).start = .reading ∧ (readingState 1 false).loader.paused = false ∧ anImage.length = 120 ∧
      Passing anImage ∧ Passing ([63] ++ List.replicate 118 0 ++ [192])) ∧
    (let zeros : BusAnswers := { bytes := List.replicate 120 0 }
     EndsTheRead zeros (readingState 0 false) ∧ ¬ BusFails zeros ∧ ¬ Passing zeros.bytes) ∧
    (EndsTheRead { anAnswer with released := none } (readingState 2 false) ∧
      BusFails { anAnswer with released := none }) := by decide

/-- R4: an image of zeros with its pulse bits, loss limit, join hold-off, quota and report interval below their ranges. -/
theorem test_image_of_zeros_has_7_clamped_fields : clampedCount (List.replicate 120 0) = 7 := by decide

/-- An image whose byte 17 is 9 or 17, one outside its range, the shares of an image on both sides of 256, the priorities of
images at, below and above 1 to 7, and addresses at and above 63. -/
theorem witness_ImageFieldsInRange :
    let bytes (v : Byte) : List Byte := List.replicate 120 v
    ((byteAt (bytes 9) 17).toNat < 10 ∧ 10 ≤ (byteAt (bytes 16) 17).toNat ∧ (byteAt (bytes 16) 17).toNat ≤ 16 ∧
      16 < (byteAt (bytes 17) 17).toNat) ∧
    (allUsers.map (fun u => ((rawShares (bytes 1)).get u).guarantee)).sum ≤ 256 ∧
    256 < (allUsers.map (fun u => ((rawShares (bytes 255)).get u).guarantee)).sum ∧
    ((byteAt (bytes 0) 106).toNat < 1 ∧ 1 ≤ (byteAt (bytes 1) 106).toNat ∧ (byteAt (bytes 7) 106).toNat ≤ 7 ∧
      7 < (byteAt (bytes 8) 106).toNat) ∧
    (byteAt (bytes 63) 3).toNat ≤ 63 ∧ 63 < (byteAt (bytes 64) 3).toNat := by decide

theorem witness_ServiceRestarts :
    (let s := withJob .serviceRestart .taken (receiving .handed bare)
     s.start = .running ∧ (s.link .toll).rx = .receiving .handed [1, 0] ∧ (s.link .sign).rx = .hunting ∧
      s.maint.slot = some { command := .serviceRestart, requester := .serviceLink, tag := 8, stage := .taken }) ∧
    (restarting bare).start = .reReading ∧ EndsTheRead anAnswer (restarting bare) ∧ ¬ BusFails anAnswer ∧
      Passing anAnswer.bytes ∧ EndsTheRead { bytes := List.replicate 120 0 } (restarting bare) ∧
      ¬ Passing (List.replicate 120 0) := by decide

/-- A station in RE_READING with HELD outcomes for both owners and an attempt that is to be abandoned on its park turn. -/
def resolved : State :=
  let s := restarting (at_ { toll := .reader, sign := .centre })
  { s with
    journal := { entries := [anEntry, { anEntry with seq := 4, readerTag := 78, cell := 21, parkTurn := true }] }
    returns := [{ kind := .toll, seq := 3, tag := 0, phase := .held .taken }, { kind := .toll, seq := 4, tag := 0 },
      { kind := .sign, seq := 0, tag := 12, phase := .held .partly }] }

/-- R73, with the example of R188: the held outcomes confirm the record and make OUTCOME(12, PARTIAL); R152: the other entry
was on its park turn, and is PARKED. -/
theorem test_held_outcomes_are_given :
    after (.readAttemptDone { bytes := List.replicate 120 0 }) resolved (fun t =>
      (t.journal.entries.map (fun e => (e.seq, e.state)), (t.link .toll).queue.map (fun m => (m.kind, m.body)),
        (t.link .sign).queue.map (fun m => (m.tag, m.body)))) =
      some ([(4, .parked)], [(3, [0, 0, 0, 77])], [(12, [2])]) := by decide

/-- The default shares are within the default shares; one unused guarantee is more than no free cell. -/
theorem witness_RestartStates :
    ((restarting bare).start = .reReading ∧ EndsTheRead anAnswer (restarting bare) ∧ (restarting bare).store.SharesKept ∧
      resolved.start = .reReading ∧ EndsTheRead anAnswer resolved ∧ resolved.image.roles.sign = .centre ∧
      resolved.peers.noted = resolved.peers.entries ∧
      after (.readAttemptDone anAnswer) resolved (·.image.roles.toll) = some .none ∧
      after (.readAttemptDone { bytes := List.replicate 120 0 }) resolved (·.image.roles.sign) = some .centre ∧
      ((restarting bare).store.users.get .ordinaryOut).count + 3 ≤
        ((restarting bare).store.users.get .ordinaryOut).guarantee) ∧
    (let kept (s : State) := after (.readAttemptDone { bytes := List.replicate 120 0 }) (restarting s) (·.image.roles.sign)
     kept bare = some .none ∧ kept signs = some .signs ∧ kept centre = some .centre ∧
      (1 : Fin 4).val < signs.image.roles.signCount ∧ signs.image.roles.signCount ≤ (2 : Fin 4).val ∧
      after (.readAttemptDone anAnswer) (restarting centre) (·.image.roles.sign) = some .none) ∧
    (let j : Job := { command := .serviceRestart, requester := .station 7, tag := 8, stage := .restarting }
     (some j).filter (fun j => j.stage == .restarting) = some j ∧ j.requester ≠ .serviceLink) ∧
    (let fits (s : State) : Prop := (∀ u ∈ allUsers, (s.store.users.get u).count ≤ (bare.image.shares.get u).maximum) ∧
       (allUsers.map (fun u => (bare.image.shares.get u).guarantee - (s.store.users.get u).count)).sum ≤ s.store.free.length
     fits bare ∧ ¬ fits (drained bare)) := by decide

theorem witness_PulseInstants :
    9 ≤ 22 ∧ 1 ≤ 511 ∧ 511 < untilPulse 9 (0 : BitVec 24).toNat ∧ (512 : BitVec 24).toNat % 2 ^ (9 + 1) = 2 ^ 9 ∧
    bare.awake = true ∧ bare.PulseNext .line ∧ (at_time 8000 bare).PulseNext .service ∧
      (at_time 0x7FFF0 bare).PulseNext .sample := by decide

theorem witness_TimersExpireAtTheirCount : 3 < max 4 1 ∧ 0 < max 0 1 := by decide

theorem witness_LinePulseOwesSpanWords :
    bare.awake = true ∧ bare.PulseNext .line ∧ (restarting bare).awake = true ∧ (restarting bare).PulseNext .line ∧
    (reader.hearQuietly [(.toll, { value := 0x7E }), (.toll, { value := 1 })]).isSome = true ∧
    (reader.hearQuietly ((spelt 1 0 []).map (fun c => (.toll, c)))).isSome = false ∧
    (bare.receiveQuietly [(.west, some .frameStart), (.east, some .spanStart)]).isSome = true ∧
    (bare.receiveQuietly [(.west, none)]).isSome = false := by decide

theorem witness_AckSampleClearsOnce :
    let s (run : Nat) : State := at_time 8191 { bare with maint := { ackRun := run } }
    (∀ run ∈ [0, 1, 2], (s run).awake = true ∧ (s run).PulseNext .service ∧ (s run).maint.ackRun ≤ 2) ∧
      (s 1).maint.ackRun = 1 ∧ ¬ ((s 1).start = .transparent ∧ Alert.configFault = .configFault) ∧
      (let c : State := { s 1 with start := .transparent, alerts := [(.configFault, { latched := true })] }
       c.awake = true ∧ c.PulseNext .service ∧ c.start = .transparent ∧ (c.alert .configFault).latched = true) ∧
      State.reset.start = .held ∧ (s 0).start = .running := by decide

/-- R198, 12.2: SIGN_FAULT has bit 7 of the enable set, and CONFIG_FAULT none. -/
theorem test_alert_output :
    let s (e : BitVec 9) (a : Alert) : State := State.report a { bare with image := { bare.image with enable := e } }
    (s 0x080 .signFault).alertLow = true ∧ (s 0x17F .signFault).alertLow = false ∧ (s 0 .configFault).alertLow = true := by
  decide

/-- A sample with every field missing turns the flag of a VALID level to HELD, which is a change. -/
theorem witness_SampleWorkStages :
    (∀ s ∈ [at_19 bare, at_19 weather, at_19 iceRising], s.awake = true ∧ s.PulseNext .sample) ∧
    ¬ (bare.start = .running ∧ bare.image.roles.weather = .station) ∧
    (iceRising.start = .running ∧ iceRising.image.roles.weather = .station) ∧
    (let differs (s : State) := after .sampleWork (at_19 s) (fun t =>
       allConditions.countP (fun c => (t.weather.conditions.get c).shown != (s.weather.conditions.get c).shown))
     differs iceRising = some 1 ∧ differs weather = some 0) ∧
    (let q (ta ts h : Bool) : PerQuantity QuantityRec := ⟨{ live := ta }, { live := ts }, { live := h }, {}, {}⟩
     (q true false true).ts.live = false ∧ ((q true true true).ts.live = true ∧ (q true true true).ta.live = true ∧
       (q true true true).h.live = true) ∧ (q false true true).ta.live = false ∧ (q true true false).h.live = false) ∧
    (∀ f ∈ [LevelFlag.unknown, .valid, .held], ({ flag := f } : ConditionRec).flag = f) ∧
    (min (598 + 1) 65535 < max 600 1 ∧ max 600 1 ≤ min (599 + 1) 65535) ∧
    (let k := weather.image.conditions.ice
     (0 < 1 ∧ k.r1 ≤ 0 ∧ ¬ k.r2 ≤ 0 ∧ max k.pUp 1 ≤ min (2 + 1) 255 ∧ min (1 + 1) 255 < max k.pUp 1) ∧
      ((9 : Int) < k.r2 - k.hysteresis ∧ ¬ (10 : Int) < k.r2 - k.hysteresis ∧ max k.pDown 1 ≤ min (29 + 1) 255 ∧
        min (28 + 1) 255 < max k.pDown 1)) := by
  refine ⟨?_, ?_, ?_, ?_, ?_, ?_, ?_, ?_⟩ <;> decide

theorem witness_IntakeAndSmoothing :
    let live (missing suspect : Nat) : QuantityRec :=
      { live := true, accepted := some 20, missing := missing, suspect := suspect }
    ((live 3 0).live = true ∧ min ((live 3 0).missing + 1) 255 < max 10 1) ∧
    ((live 9 0).live = true ∧ max 10 1 ≤ min ((live 9 0).missing + 1) 255) ∧
    ({} : QuantityRec).live = false ∧
    ((live 0 0).accepted = some 20 ∧ ((70 : Int) - 20).natAbs ≤ 50) ∧
    (50 < ((71 : Int) - 20).natAbs ∧ (live 0 1).suspect < 2 ∧ 2 ≤ (live 0 2).suspect) ∧
    (1 ≤ 1 ∧ (10000 : Int) ≤ 10000 ∧ (2560000 : Int) ≤ 2560000) := by decide

theorem witness_LevelMachineAndTransitionRows :
    (let k := weather.image.conditions.ice
     let high : ConditionRec := { flag := .valid, level := 0, up := 2 }
     let low : ConditionRec := { flag := .valid, level := 2, down := 29 }
     (high.level ≤ 3 ∧ high.level < (high.machine k 25).level) ∧ low.level ≤ 3 ∧ (low.machine k 5).level < low.level) ∧
    (wind10.start = .running ∧ wind10.image.roles.weather = .station ∧ (wind10.weather.quantities.get .w).live = true ∧
      max wind10.image.staleLimit 1 ≤ min ((wind10.weather.quantities.get .w).missing + 1) 255 ∧ Quantity.ta ≠ .w) ∧
    (iceRising.start = .running ∧ iceRising.image.roles.weather = .station ∧
      iceRising.queues.localClass2.any (fun h => h.frame.kind == .condition) = false ∧
      iceRising.grants .ordinaryOut = true) ∧
    (let k := weather.image.conditions.ice
     let r := iceRising.weather.conditions.get .ice
     r.flag = .valid ∧ r.severity = some 25 ∧ r.level < k.raw 25 ∧ max k.pUp 1 ≤ r.up + 1 ∧ r.up < 255) ∧
    (let k := weather.image.conditions.ice
     let r := iceFalling.weather.conditions.get .ice
     r.flag = .valid ∧ r.severity = some 5 ∧ k.raw 5 ≤ r.level ∧ 0 < r.level ∧
      5 < k.threshold r.level - k.hysteresis ∧ max k.pDown 1 ≤ r.down + 1 ∧ r.down < 255) ∧
    (let r := iceHeld.weather.conditions.get .ice
     r.flag = .held ∧ max iceHeld.image.staleClear 1 ≤ r.held + 1 ∧ r.held < 65535) := by decide

def homeless (s : State) : State := { s with image := { s.image with weatherPrimary := 0 } }
def aReport : Held := { aHeld with frame := { kind := .weather, source := 4, dest := 9 }, user := .weatherOut }

theorem witness_ReportsAndSamples :
    (reporting.start = .running ∧ reporting.image.roles.weather = .station ∧ reporting.weather.report.due = true ∧
      reporting.weatherHome ≠ 0 ∧ reporting.grants .weatherOut = true) ∧
    ((drained reporting).grants .weatherOut = false ∧ (drained reporting).queues.localWeather = [] ∧
      (withQueues { localWeather := [aReport] } (drained reporting)).queues.localWeather = aReport :: []) ∧
    ((homeless reporting).weather.report.due = true ∧ (homeless reporting).weatherHome = 0) ∧
    (Hears .weather (spelt 0x21 7 (List.replicate 12 0)) (.message 0x21 7 (List.replicate 12 0)) weather ∧
      Hears .weather (spelt 0x21 7 []) (.message 0x21 7 []) weather) :=
  ⟨by decide, by decide, by decide, hears_of (by decide), hears_of (by decide)⟩

/-- A message in reception after its start marker, and after all but its last character. -/
theorem witness_LinkReceiver :
    bare.linkActive .toll = false ∧ reader.linkActive .toll = true ∧ aRecord.length ≤ 240 ∧
    (reader.link .toll).rx = .hunting ∧ (∀ c ∈ [({ value := 3 } : LinkChar)], c.value ≠ 0x7E) ∧
    (∀ f ∈ [Fate.handed, .overrun, .dropped], ((receiving f reader).link .toll).rx = .receiving f [1, 0]) ∧
    (reader.readyOut .toll = true ∧ full.readyOut .toll = false) ∧
    crc16 [1, 0, 0] ≠ 0 ∧ 240 < (241 : Byte).toNat := by decide

theorem witness_LinkMessagesDiscarded :
    Hears .service [{ value := 0x7E, framing := true }] .malformed bare ∧
    Hears .toll (spelt 0x31 0 []) .unknown reader ∧ Hears .toll (spelt 1 0 aRecord) .overrun full ∧
    (∀ f ∈ [Fate.handed, .overrun, .dropped], ((receiving f reader).link .toll).rx = .receiving f [1, 0] ∧
      ((receiving f reader).link .toll).gap.due = true) ∧
    (receiving .handed reader).linkActive .toll = true ∧ (receiving .handed bare).linkActive .toll = false :=
  ⟨hears_of (by decide), hears_of (by decide), hears_of (by decide), by decide⟩

def sendingMessage (h : Holder) : State :=
  { signs with links := signs.links.set .sign { queue := [{ kind := 0x11, body := [], holder := h }], sending := true } }

theorem witness_OutputQueuesAreServed :
    ((bare.link .service).queue = [] ∧ ((withNotice false).link .toll).queue ≠ [] ∧
      ((withNotice false).link .toll).sending = false ∧ (withNotice false).linkActive .toll = true) ∧
    (∀ h ∈ [Holder.cell .receive 3, .notice, .outcome, .nobody, .sign 1],
      ((sendingMessage h).link .sign).sending = true ∧
      ((sendingMessage h).link .sign).queue = [{ kind := 0x11, body := [], holder := h }]) ∧ (0 : Fin 4) ≠ 1 := by decide

def fullJournal : State := receiving .handed full

/-- The characters of a record after its first three. -/
def restOf (body : List Byte) : List LinkChar := (spelt 1 0 body).drop 3

theorem witness_RecordIsTakenOrRefused :
    (Hears .toll (spelt 1 0 aRecord) (.message 1 0 aRecord) reader ∧
      Hears .toll (spelt 1 0 (List.replicate 15 2)) (.message 1 0 (List.replicate 15 2)) reader ∧
      Hears .toll (restOf aRecord) (.message 1 0 aRecord) fullJournal ∧
      Hears .toll (restOf aRecord) (.message 1 0 aRecord) (drained (receiving .handed reader)) ∧
      Hears .toll (spelt 1 0 ([0, 0, 0, 77] ++ List.replicate 12 0)) (.message 1 0 ([0, 0, 0, 77] ++ List.replicate 12 0))
        sendable) ∧
    (16 ≤ aRecord.length ∧ aRecord.length ≤ 200 ∧ (∀ e ∈ reader.journal.entries, e.readerTag ≠ readerTag aRecord) ∧
      reader.journal.entries.length < 96 ∧ reader.grants .journal = true ∧ reader.noticesHeld < 16) ∧
    (drained (receiving .handed reader)).grants .journal = false ∧
    (∃ e ∈ sendable.journal.entries, e.readerTag = readerTag ([0, 0, 0, 77] ++ List.replicate 12 0)) ∧
    (∀ e ∈ fullJournal.journal.entries, e.readerTag ≠ readerTag aRecord) ∧
      96 ≤ fullJournal.journal.entries.length ∧ fullJournal.noticesHeld < 16 :=
  ⟨⟨hears_of (by decide), hears_of (by decide), hears_of (by decide), hears_of (by decide), hears_of (by decide)⟩,
    by decide⟩

theorem witness_SendPassAndJournalTimers :
    (sendable.start = .running ∧ sendable.image.roles.toll = .reader ∧ (sendable.journal.entries.map (·.seq)).Nodup ∧
      sendable.journal.entries.countP (fun x => x.state == .inFlight) < 4 ∧ sendable.tollHome ≠ 0 ∧
      sendable.journal.candidate = some { anEntry with state := .waiting } ∧
      canRegister .toll 3 (BitVec.ofNat 8 1) sendable.returns = true) ∧
    (backing.start = .running ∧ ∃ e ∈ backing.journal.entries, e.seq = 3 ∧ e.backoff.due = true) ∧
    parked.start = .running ∧ parked.journal.park.due = true := by decide

theorem witness_OutcomesMoveTheEntry :
    let s := inFlight .running
    (s.journal.entries.map (·.seq)).Nodup ∧ anEntry ∈ s.journal.entries ∧ anEntry.state = .inFlight ∧ s.noticesHeld < 16 ∧
      ¬ (anEntry.parkTurn = true ∨ max s.image.retryLimit 1 ≤ anEntry.attempts) ∧
      { anEntry with parkTurn := true }.parkTurn = true := by decide

def awaited (k : ReturnKind) : ReturnEntry := { kind := k, seq := 3, tag := 0, phase := .awaiting, deadline := fired }
def outcomeDue (k : ReturnKind) (st : StartState) : State := { centre with start := st, returns := [awaited k] }

theorem witness_ReturnsAreResolved :
    (∀ st ∈ [StartState.reReading, .running],
      ((inFlight st).returns.map (fun e => (e.kind, e.seq, e.tag))).Nodup ∧ (inFlight st).start = st ∧
      awaited .toll ∈ (inFlight st).returns ∧ (awaited .toll).phase = .awaiting ∧ (awaited .toll).deadline.due = true) ∧
    (anEntry ∈ (inFlight .running).journal.entries ∧ ((inFlight .running).journal.entries.map (·.seq)).Nodup ∧
      anEntry.seq = 3 ∧ anEntry.state = .inFlight ∧ anEntry.parkTurn = false ∧
      anEntry.attempts < (inFlight .running).image.retryLimit) ∧
    ((outcomeDue .sign .running).outcomesHeld < 16 ∧ (outcomeDue .sign .running).start = .running ∧
      awaited .sign ∈ (outcomeDue .sign .running).returns) ∧
    (∀ e ∈ centre.returns, e.phase ≠ .awaiting) := by decide

def tollHeld (tag : Byte) : Held :=
  { aHeld with frame := { kind := .toll, source := 5, dest := 4, payload := [0, 0, 0, tag] ++ List.replicate 12 0 } }
def collecting (e : Source) : State := { collector with collector := { sources := [(5, e)] } }
def settled : Source := { state := .settled, highest := 9, window := 1 }

/-- The rows of the tag decision, at the distances 32 and 33. -/
theorem witness_CollectorTakesRecords :
    (let fresh : Source := { state := .fresh, highest := 9, accepts := 31 }
     let wide : Source := { state := .settled, highest := 50, window := 0x80000000 }
     ({} : Source).state = .empty ∧ fresh.state ≠ .empty ∧ fresh.state = .fresh ∧ 32 ≤ fresh.accepts + 1 ∧
      fresh.highest.toNat < (10 : BitVec 32).toNat ∧ (9 : BitVec 32) = fresh.highest ∧
      ((18 : BitVec 32).toNat < wide.highest.toNat ∧ 50 - (18 : BitVec 32).toNat ≤ 32 ∧
        (decide (1 ≤ 32) && wide.window.getLsbD (32 - 1)) = true ∧ (decide (1 ≤ 31) && wide.window.getLsbD (31 - 1)) = false) ∧
      32 < 50 - (17 : BitVec 32).toNat) ∧
    (7 : BitVec 32) ∈ [5, 7, 9] ∧
    ((tollHeld 9).frame.group = false ∧ (tollHeld 9).frame.dest = collector.image.address ∧
      16 ≤ (tollHeld 9).frame.payload.length ∧ (tollHeld 9).frame.payload.length ≤ 200) ∧
    aFrame.dest ≠ collector.image.address ∧
    ((drained collector).store.request .receive = none ∧ (collecting settled).grants .receive = true) ∧
    (((collecting settled).source 5).decideTag (readerTag (tollHeld 10).frame.payload)).1 = .accept ∧
    ((collector.source 5).decideTag (readerTag (tollHeld 10).frame.payload)).1 = .acceptUnverified ∧
    (((collecting settled).source 5).decideTag (readerTag (tollHeld 9).frame.payload)).1 = .duplicate := by decide

theorem witness_ShownAndSignFault :
    let at_ (h : Handover) : State := withSign (showing h) signs
    ((1 : Fin 4).val < (at_ .idle).image.roles.signCount ∧
      ((at_ .awaiting).sign 1).outstanding = some { number := 6, selection := .blank, body := [] } ∧
      ((at_ .awaiting).sign 1).selection = .blank ∧ (signs.sign 1).outstanding = none ∧
      ((withSign { showing .awaiting with selection := .conditions 3 } signs).sign 1).selection ≠ .blank ∧
      ∀ h ∈ [Handover.idle, .sending, .awaiting], ((at_ h).sign 1).handover = h) ∧
    (Hears .sign (spelt 0x12 0 [1, 6]) (.message 0x12 0 [1, 6]) (at_ .awaiting) ∧
      Hears .sign (spelt 0x12 0 [1, 7]) (.message 0x12 0 [1, 7]) (at_ .sending) ∧
      Hears .sign (spelt 0x13 0 [1, 0]) (.message 0x13 0 [1, 0]) (at_ .awaiting)) ∧
    (([1] : List Byte).length ≠ 2 ∧ Hears .sign (spelt 0x12 0 [1]) (.message 0x12 0 [1]) signs ∧
      signs.image.roles.signCount ≤ (byteAt [2, 0] 0).toNat ∧
      Hears .sign (spelt 0x13 0 [2, 0]) (.message 0x13 0 [2, 0]) signs) := by
  refine ⟨by decide, ⟨hears_of ?_, hears_of ?_, hears_of ?_⟩, by decide, hears_of ?_, by decide, hears_of ?_⟩ <;> decide

def crowded : State :=
  { centre with returns := (List.range 16).map (fun n => { kind := .sign, seq := BitVec.ofNat 16 (n + 1), tag := 0 }) }
def aCommand : List Byte := [6, 2, 15, 0, 1]

/-- The SIGN link of a CENTRE that has received the start marker, kind, tag and length of a command. -/
def commanding (s : State) : State := { s with links := s.links.set .sign { rx := .receiving .handed [0x14, 9, 5] } }

theorem witness_SignCommandsArePlaced :
    (2 ≤ aCommand.length ∧ aCommand.length ≤ 233 ∧ centre.signs.buffer = none ∧
      canRegister .sign centre.seqs.sign 9 centre.returns = true ∧ centre.grants .ordinaryOut = true ∧
      Hears .sign (spelt 0x14 9 aCommand) (.message 0x14 9 aCommand) centre) ∧
    (canRegister .sign crowded.seqs.sign 9 crowded.returns = false ∧
      Hears .sign (spelt 0x14 9 aCommand) (.message 0x14 9 aCommand) crowded) ∧
    ((drained (commanding centre)).grants .ordinaryOut = false ∧ (commanding holding).signs.buffer ≠ none ∧
      Hears .sign ((spelt 0x14 9 aCommand).drop 4) (.message 0x14 9 aCommand) (drained (commanding centre)) ∧
      Hears .sign ((spelt 0x14 9 aCommand).drop 4) (.message 0x14 9 aCommand) (commanding holding)) ∧
    (([6] : List Byte).length < 2 ∧ centre.outcomesHeld < 16 ∧ Hears .sign (spelt 0x14 9 [6]) (.message 0x14 9 [6]) centre) ∧
    (holding.start = .running ∧ holding.image.roles.sign = .centre ∧ holding.signs.buffer = some (9, aCommand) ∧
      canRegister .sign holding.seqs.sign 9 holding.returns = true ∧ holding.grants .ordinaryOut = true ∧
      (drained holding).grants .ordinaryOut = false) := by
  refine ⟨⟨by decide, by decide, by decide, by decide, by decide, hears_of ?_⟩, ⟨by decide, hears_of ?_⟩,
    ⟨by decide, by decide, hears_of ?_, hears_of ?_⟩, ⟨by decide, by decide, hears_of ?_⟩, by decide⟩ <;> decide

theorem witness_ShowRetrySendsAgain :
    ∀ run ∈ [0, 2],
      let s := withSign { showing .awaiting with retry := fired, timeouts := run } signs
      s.start = .running ∧ s.image.roles.sign = .signs ∧ (1 : Fin 4).val < s.image.roles.signCount ∧
        (s.sign 1).handover = .awaiting ∧ (s.sign 1).retry.due = true ∧
        (s.sign 1).outstanding = some { number := 6, selection := .blank, body := [] } ∧ (s.sign 1).fault = false := by
  decide

theorem witness_SignEntriesAndSelection :
    (signs.start = .running ∧ signs.image.roles.sign = .signs ∧ (1 : Fin 4).val < signs.image.roles.signCount) ∧
    (centreEntry.lifetime.due = true ∧ ((withSign { centre := some centreEntry } signs).sign 1).centre = some centreEntry) ∧
    ((withSign { test := some { pattern := 2, duration := fired } } signs).sign 1).test =
      some { pattern := 2, duration := fired } ∧
    ((incident .rising).signs.incidentTimer.due = true ∧ (incident .rising).signs.incident = .rising ∧
      (incident .rising).image.incidentSet.getLsbD 1 = true) ∧
    ((incident .falling).signs.incidentTimer.due = true ∧ (incident .falling).signs.incident = .falling) ∧
    (let r : SignRec := { centre := some centreEntry, incident := true }
     r.test = none ∧ 1 ≤ signs.image.incidentPriority ∧ 1 ≤ signs.image.conditionsPriority ∧
      r.centre = some centreEntry ∧ 1 ≤ centreEntry.priority) ∧
    (∀ sel ∈ [Selection.blank, .centre 3, .conditions 7, .incident 5, .test 2],
      let r : SignRec := { centre := some centreEntry, selection := sel }
      r.selection = sel ∧ r.centre = some centreEntry) := by decide

/-- R183: CONDITIONS is selected above both other priorities and loses a tie with either. -/
theorem test_selection_of_conditions :
    let select (i c : Nat) (centre : Bool) : Selection :=
      SignRec.select { signs.image with incidentPriority := i, conditionsPriority := c, incidentDelay := 1 } (some 7)
        { incident := !centre, centre := if centre then some { centreEntry with priority := 4 } else none }
    select 4 5 true = .conditions 7 ∧ select 4 4 true = .centre centreEntry.identity ∧ select 4 5 false = .conditions 7 ∧
      select 4 4 false = .incident 5 := by decide

theorem witness_SignFrames :
    let p1 : List Byte := [1, 3, 0, 3, 7, 0, 5, 65]
    let p2 : List Byte := [2, 3, 0, 3]
    let p3 : List Byte := [3, 3, 8, 2, 88]
    let barred := withSign { incident := true } signs
    signs.image.roles.sign = .signs ∧
    ((byteAt p1 0).toNat = 1 ∧ 8 ≤ p1.length ∧ p1.length ≤ 207 ∧ 1 ≤ (byteAt p1 4).toNat ∧ (byteAt p1 4).toNat ≤ 7) ∧
    ((byteAt p2 0).toNat = 2 ∧ p2.length = 4) ∧
    ((byteAt p3 0).toNat = 3 ∧ p3.length = 5 ∧ (byteAt p3 2).toNat ≠ 0 ∧ 1 ≤ natAt p3 3 ∧ natAt p3 3 ≤ 600) ∧
    ((1 : Fin 4).val < signs.image.roles.signCount ∧ (byteAt p1 1).getLsbD 1 = true ∧ (byteAt [4, 0] 1).getLsbD 1 = false) ∧
    ((withSign { centre := some centreEntry } signs).sign 1).centre = some centreEntry ∧
      centreEntry.id = wordAt p2 2 ∧ (barred.sign 1).incident = true := by decide

/-! ### Line ports, carriage and peers -/

def both (s : State) : State := withEast up (withWest up s)

/-- A frame of 2 payload bytes with its CRC, and the header of one whose source is 0. -/
def loadedFrame : Frame := { kind := .toll, source := 5, dest := 9, payload := [1, 2], crc := crc32 [1, 2] }
def invalidHeader : BitVec 72 := frameHeader { aFrame with source := 0 }

theorem witness_PortReceiver :
    (State.reset.awake = false ∧ Pins.signal .west { bare with pins := { signalWest := false } }.pins = false) ∧
    ((bare.receiveQuietly [(.west, some .frameStart), (.west, some (.data 1)), (.east, some .spanStart)]).isSome = true ∧
      (brought [none] bare).isSome = true ∧ ([none] : List RxSymbol) ≠ [] ∧ brought [some .idle] bare = none) ∧
    (bare.awake = true ∧ Pins.signal .west bare.pins = true ∧ bare.west.rx = .hunting ∧
      ∀ x ∈ [some Symbol.idle, some .frameEnd, some .abort, some (.data 1)],
        x ≠ none ∧ x ≠ some .frameStart ∧ x ≠ some .spanStart) ∧
    (readSpanWord 0x1500 (spanCheck 0x1500) = some (5, .ready, false) ∧ readSpanWord 0 1 = none) ∧
    (readHeader (frameHeader aFrame ^^^ 3) = .discarded ∧ readHeader invalidHeader = .invalid false ∧
      readHeader (invalidHeader ^^^ 1) = .invalid true ∧
      readHeader (frameHeader loadedFrame) = .passes { loadedFrame with payload := [], crc := 0 } 2 false ∧
      readHeader (frameHeader aFrame ^^^ 1) = .passes aFrame 0 true) ∧
    (∀ x ∈ [RxState.header [1], .body aFrame 0 false [], .body aFrame 1 true [7], .span [1]],
      ((withWest { rx := x } bare).port .west).rx = x) ∧ ([7] : List Byte).length < 1 + 4 := by
  refine ⟨?_, ?_, ?_, ?_, ?_, ?_⟩ <;> decide

theorem witness_PortReceiver_carries :
    Carries (.rxFrameComplete .west [] [] []) .west [some .frameEnd] ∧
      Carries (.rxFrameDiscarded .west [] (some .idle)) .west [some .idle] ∧
      Carries (.spanWordReceived .west [] 7) .west [some (.data 7)] ∧
      Carries (.spanWordInvalid .west [none]) .west [none] ∧ Carries (.lineCodeError .west) .west [none] ∧
      brought [some .frameEnd] bare = none ∧ brought [some (.data 7)] bare = none ∧
      brought [none] { bare with pins := { signalWest := false } } = none :=
  ⟨.inl ⟨[], [], [], rfl, rfl⟩, .inr (.inl ⟨[], _, rfl, rfl⟩), .inr (.inr (.inl ⟨[], 7, rfl, rfl⟩)),
    .inr (.inr (.inr (.inl rfl))), .inr (.inr (.inr (.inr ⟨rfl, rfl⟩))), by decide, by decide, by decide⟩

theorem witness_ReceivedFrames :
    let own (k : Kind) (n : Nat) : Frame := { aFrame with kind := k, source := 4, fold := n }
    let s := both (aging 0)
    let x := lineOf (frameHeader aFrame)
    (s.start = .running ∧ brought x s = some (.frame aFrame false [] 0) ∧ ((left x s).port .west).Quiet s.image) ∧
    (brought x bare = some (.frame aFrame false [] 0) ∧ (left x bare).west.link ≠ .up ∧ (left x bare).west.link ≠ .joining) ∧
    ((left x s).west.link = .up ∧ (left x (drained s)).store.request .transitRise = none) ∧
    ((left x s).grants .transitRise = true ∧
      ∀ k ∈ [Kind.toll, .sign, .presence],
        brought (lineOf (frameHeader (own k 2))) s = some (.frame (own k 2) false [] 0) ∧ (own k 2).source = s.image.address) ∧
    ((s.port (Dir.side (Port.arrival .west))).link = .up ∧ aFrame.source ≠ s.image.address ∧ aFrame.fold = 0 ∧
      ((left x s).peer aFrame.source).state = .present ∧ (6 : Addr) ≠ aFrame.source) ∧
    (brought (lineOf (frameHeader aFrame ^^^ 1)) s = some (.frame aFrame true [] 0) ∧
      (s.modPort .west (fun r => { r with link := .joining })).west.link = .joining) ∧
    (∀ n ∈ [0, 1], brought (lineOf (frameHeader (own .presence n))) s = some (.frame (own .presence n) false [] 0)) ∧
    (∀ f ∈ [aFrame, { aFrame with fold := 2 }, { aFrame with fold := 1, dest := 8 }],
      brought (lineOf (frameHeader f)) s = some (.frame f false [] 0) ∧ (f.fold ≠ 1 ∨ s.addressedHere f = false)) ∧
    (∀ st ∈ [StartState.running, .reReading, .transparent], ∀ w ∈ [s, both bare],
      brought x { w with start := st } = some (.frame aFrame false [] 0) ∧ (left x { w with start := st }).start = st) ∧
    ((both bare).peer aFrame.source).state ≠ .present ∧
    loadedFrame.line.map some = frameSymbols (headOf (frameHeader loadedFrame)) [1, 2] (crcBytes loadedFrame.crc) ∧
    brought (frameSymbols (headOf (frameHeader loadedFrame)) [1, 2] (crcBytes loadedFrame.crc)) s =
      some (.frame { loadedFrame with payload := [], crc := 0 } false [1, 2] (crc32 [1, 2])) := by
  refine ⟨?_, ?_, ?_, ?_, ?_, ?_, ?_, ?_, ?_, ?_, ?_, ?_⟩ <;> decide

/-- A source that is ABSENT: the notices go to a reader whose home it is, to a line that asks and to a zone station's signs. -/
theorem witness_ReceivedFrames_notices :
    let home : Addr := aFrame.source
    let s := both { parked with image := { parked.image with tollPrimary := home } }
    s.start = .running ∧ (s.peer home).state ≠ .present ∧ s.image.roles.toll ≠ .none ∧ home = s.image.tollPrimary ∧
      ∃ e ∈ s.journal.entries, e.state = .parked := by decide

theorem witness_ReceptionErrorsScore :
    let isolated := withWest { link := .isolated, errorState := .isolated, hearing := true, recovery := Timer.arm 3 } bare
    (∀ y ∈ [((headOf (frameHeader aFrame ^^^ 3)).take 9, some (.data (byteAt (headerBytes (frameHeader aFrame ^^^ 3)) 8)),
          PortEvent.discarded .headerDiscarded),
        ((headOf invalidHeader).take 9, some (.data (byteAt (headerBytes invalidHeader) 8)), .discarded .headerInvalid),
        ([some .frameStart], some .idle, .discarded .delimiter), ([some .frameStart], none, .discarded .lineCode),
        ([some .frameStart], some .abort, .discarded .aborted), ([some .spanStart], some .frameEnd, .spanInvalid false),
        ([some .spanStart], none, .spanInvalid true), ([], none, .codeError)],
      let symbols := y.1 ++ [y.2.1]
      brought symbols bare = some y.2.2 ∧ ((left symbols bare).port .west).Quiet bare.image ∧
        (left symbols bare).west.link ≠ .isolated) ∧
    (∀ y ∈ [some Symbol.idle, none],
      let symbols := [some .spanStart] ++ [y]
      brought symbols isolated = some (.spanInvalid (y == none)) ∧ (left symbols isolated).west.link = .isolated ∧
        (left symbols isolated).west.errorState = .isolated ∧ (left symbols isolated).west.recovery.running = true) ∧
    (Pins.signal .west State.reset.pins = true ∧ State.reset.awake = false ∧ bare.receiveQuietly [(.west, none)] = none ∧
      bare.awake = true) ∧
    (∀ y ∈ [([], RxState.hunting), ([some Symbol.frameStart], .header []),
        (headOf (frameHeader aFrame), .body aFrame 0 false []), ([some .spanStart], .span [])],
      (bare.receiveQuietly (y.1.map (fun x => (.west, x)))).map (fun t => t.west.rx) = some y.2) ∧
    Pins.signal .west { bare with pins := { signalWest := false } }.pins = false := by
  refine ⟨?_, ?_, ?_, ?_, ?_⟩ <;> decide

theorem witness_SpanWordRules :
    (∀ st ∈ [SpanState.notReady, .ready, .joined], ∀ fault ∈ [false, true], ∀ a ∈ [(4 : Addr), 5],
      brought (spanWordOf (spanContent a st fault)) bare = some (.spanWord a st fault)) ∧
    (∀ st ∈ [StartState.running, .reReading, .transparent],
      ∀ l ∈ [LinkState.down, .settling, .joining, .up, .isolated],
        let s := { withWest { link := l } bare with start := st }
        brought (spanWordOf 0x1500) s = some (.spanWord 5 .ready false) ∧
          (left (spanWordOf 0x1500) s).west.link = l) ∧
    (4 = bare.image.address ∧ 5 ≠ bare.image.address) ∧
    State.NothingLeaves .west (left (spanWordOf 0x1500) (withWest up bare)) := by
  refine ⟨?_, ?_, ?_, ?_⟩ <;> decide

theorem witness_FoldTimersAndIsolation :
    (∀ l ∈ [LinkState.down, .settling, .joining, .up, .isolated],
      let s := withWest { link := l, loss := fired, holdOff := fired, recovery := fired } bare
      s.awake = true ∧ (s.port .west).link = l ∧ (s.port .west).loss.due = true ∧ (s.port .west).holdOff.due = true ∧
        (s.port .west).recovery.due = true ∧ State.NothingLeaves .west s) ∧
    (∀ l ∈ [LinkState.joining, .up],
      let s := left [none] (withWest { link := l, score := 234 } bare)
      brought [none] (withWest { link := l, score := 234 } bare) = some .codeError ∧ s.west.errorState ≠ .isolated ∧
        s.image.isolation ≤ min (s.west.score + 6) 255 ∧ State.NothingLeaves .west s) ∧
    (∀ x ∈ [(ErrorState.active, 89), (.active, 90), (.warning, 58), (.warning, 64), (.warning, 233)],
      let s := withWest { link := .down, errorState := x.1, score := x.2 } bare
      brought [none] s = some .codeError ∧ brought (lineOf (frameHeader aFrame)) s = some (.frame aFrame false [] 0) ∧
        (left [none] s).west.errorState ≠ .isolated ∧ min (s.west.score + 6) 255 < s.image.isolation ∧
        s.west.score - 1 < s.image.isolation ∧ s.west.link ≠ .up ∧ s.west.link ≠ .joining) := by
  refine ⟨?_, ?_, ?_⟩ <;> decide

/-- R32, with the defaults of chapter 13: 90 + 6 is 96, the warning threshold, and 64 - 1 is below the threshold of 64. -/
theorem test_warning_begins_and_ends :
    let s (e : ErrorState) (n : Nat) : State := withWest { errorState := e, score := n } bare
    let shows (t : State) := (t.west.score, t.west.errorState, (t.alert .portWarning).latched)
    after (.lineCodeError .west) (s .active 89) shows = some (95, .active, false) ∧
    after (.lineCodeError .west) (s .active 90) shows = some (96, .warning, true) ∧
    after (.rxFrameComplete .west (headOf (frameHeader aFrame)) [] []) (s .warning 65) shows = some (64, .warning, false) ∧
    after (.rxFrameComplete .west (headOf (frameHeader aFrame)) [] []) (s .warning 64) shows = some (63, .active, false) := by decide

theorem witness_TransmitterIsFreed :
    bare.awake = true ∧ ((withWest { tx := .span 0 } bare).port .west).tx = .span 0 ∧
      ((withWest { up with tx := .frame aHeld } bare).port .west).tx = .frame aHeld := by decide

theorem witness_ArbiterServesInOrder :
    let s (q : Queues) : State := withQueues q (both bare)
    let later : Queues := { localToll := [aHeld], localClass2 := [aHeld], localWeather := [aHeld] }
    (s {}).awake = true ∧ (s {}).east.link = .up ∧ (s {}).east.tx = .idle ∧ (s {}).east.owesSpan = false ∧
    (s {}).west.link = .up ∧ (s {}).west.tx = .idle ∧ (s {}).west.owesSpan = false ∧ (s {}).start ≠ .reReading ∧
    (s { riseUrgent := [aHeld] }).queues.riseUrgent = [aHeld] ∧
    (s { localUrgent := [aCall] }).queues.localUrgent = aCall :: [] ∧ aCall.frame.kind.urgent = true ∧
    (s { riseOrdinary := [aHeld] }).queues.riseOrdinary = [aHeld] ∧
    ((s later).queues.riseUrgent = [] ∧ (s later).queues.localUrgent = [] ∧ (s later).queues.riseOrdinary = [] ∧
      (∀ e ∈ (s later).holdback.entries, (s later).holdback.inserted < e.quota) ∧
      (s later).queues.localToll = [aHeld]) ∧
    (∃ e ∈ heldBack.holdback.entries, e.quota ≤ heldBack.holdback.inserted) ∧
    (s { fallUrgent := [aHeld] }).queues.fallUrgent = [aHeld] ∧
    (s { fallOrdinary := [aHeld] }).queues.fallOrdinary = [aHeld] := by decide

theorem witness_FoldOnset :
    ∀ tx ∈ [TxState.idle, .span 0, .frame aHeld],
      let s := withQueues { fallUrgent := [aHeld] } (withWest { up with loss := fired, tx := tx } bare)
      s.awake = true ∧ (s.port .west).link = .up ∧ (s.port .west).loss.due = true := by decide

/-- A station whose EAST side is folded, with a local URGENT frame in a cell of its own. -/
def island : State :=
  let s := withQueues { localUrgent := [aCall] } (withWest up bare)
  { s with store := { s.store with
      free := s.store.free.filter (fun n => n != 17)
      users := { s.store.users with urgentOut := { s.store.users.urgentOut with count := 1 } } } }

/-- The same with the FALL transit user at its maximum. -/
def stuffed (s : State) : State :=
  { s with store := { s.store with
      users := { s.store.users with transitFall := { s.store.users.transitFall with count := s.store.users.transitFall.maximum } } } }

def aToll : Held :=
  { frame := { kind := .toll, source := 4, dest := 9, payload := aRecord }, cell := 20, user := .journal }

def aSign : Held :=
  { frame := { kind := .sign, source := 4, dest := 9, seq := 2, tag := 12, payload := [1] }, cell := 17, user := .ordinaryOut }

/-- A station with its east side folded, where cell 17 is held by the given user. -/
def coasting (u : User) : State :=
  let s := withWest up bare
  { s with store := { s.store with
      free := s.store.free.filter (fun n => n != 17)
      users := s.store.users.set u { s.store.users.get u with count := 1 } } }

theorem witness_FoldedSideTurnsFramesBack :
    (User.urgentOut ≠ .transitFall ∧ (island.store.transfer .urgentOut .transitFall 17).isSome = true ∧
      ((stuffed island).store.transfer .urgentOut .transitFall 17).isSome = false) ∧
    (aCall.user ≠ .journal ∧ aCall.user ≠ Dir.user (Dir.flip .rise) ∧ aCall.frame.fold < 2 ∧
      { aCall with frame := { aCall.frame with fold := 2 } }.frame.fold = 2) ∧
    (island.start = .running ∧ island.east.link ≠ .up ∧ island.east.lineWait = none ∧ island.west.link = .up ∧
      island.queues.riseUrgent = [] ∧ island.queues.localUrgent = [aCall] ∧ aCall.frame.kind.urgent = true ∧
      aCall.user = .urgentOut ∧ aCall.frame.source = island.image.address ∧ aCall.frame.fold = 0) ∧
    (let s := withQueues { localToll := [aToll] } island
     s.queues.localUrgent = [] ∧ s.queues.riseOrdinary = [] ∧ s.queues.localToll = aToll :: [] ∧ aToll.frame.kind = .toll ∧
      aToll.user = .journal ∧ aToll.frame.source = s.image.address ∧ aToll.frame.fold = 0 ∧
      (∀ e ∈ s.holdback.entries, s.holdback.inserted < e.quota) ∧ (s.store.request .transitFall).isSome = true ∧
      (stuffed s).store.request .transitFall = none) ∧
    (∀ h ∈ [aSign, aReport], ∀ wide ∈ [false, true],
      let s := withQueues (if h.user = .ordinaryOut then { localClass2 := [h] } else { localWeather := [h] }) (coasting h.user)
      let s := if wide then s else stuffed s
      s.start = .running ∧ s.east.link ≠ .up ∧ s.east.lineWait = none ∧ s.west.link = .up ∧ s.queues.riseUrgent = [] ∧
        h.frame.source = s.image.address ∧ h.frame.fold = 0 ∧ s.queues.localUrgent = [] ∧ s.queues.riseOrdinary = [] ∧
        s.queues.localToll = [] ∧ (s.queues.localClass2 = [h] ∨ (s.queues.localClass2 = [] ∧ s.queues.localWeather = [h])) ∧
        h.frame.kind.urgent = false ∧ (h.user = .ordinaryOut ∨ h.user = .weatherOut) ∧ s.holdback.entries = [] ∧
        (s.store.transfer h.user .transitFall h.cell).isSome = wide) := by
  refine ⟨?_, ?_, ?_, ?_, ?_⟩ <;> decide

/-- R48, R50, R70: a SIGN frame launched at a head fold is turned back into FALL in the cell it held, and its deadline runs. -/
theorem test_sign_frame_turned_back :
    after (.arbiterChoice .rise) { withQueues { localClass2 := [aSign] } (coasting .ordinaryOut) with
        returns := [{ kind := .sign, seq := 2, tag := 12 }] } (fun t =>
      (t.queues.fallOrdinary.map (fun h => (h.frame.fold, h.cell, h.user)), t.east.lineWait,
        t.returns.map (·.phase))) = some ([(1, 17, .transitFall)], some 16, [.awaiting]) := by decide

theorem witness_CopyStep :
    (∀ k ∈ [Kind.voice, .call, .holdback, .toll, .sign, .presence, .status, .weather, .condition],
      let s := at_ { phone := .roadside, toll := .collector, weather := .home, sign := .signs, signCount := 1 }
      s.start = .running ∧ s.image.roles.weather = .home ∧ s.takesKind k = true) ∧
    (bare.takesKind .toll = false ∧ aToll.frame.damaged = false ∧ { aFrame with damaged := true }.damaged = true ∧
      { aFrame with dest := 4 }.dest = bare.image.address ∧ aFrame.dest = 0) ∧
    (∀ st ∈ [StartState.running, .reReading], ∀ w ∈ [both (aging 0), both bare],
     let f : Frame := { aFrame with fold := 1 }
     let was := { w with start := st }
     let s := left (lineOf (frameHeader f)) was
     was.start = st ∧ brought (lineOf (frameHeader f)) was = some (.frame f false [] 0) ∧
      (s.port .west).Quiet s.image ∧ (s.port .west).link = .up ∧ (s.port (Dir.side (Port.arrival .west))).link = .up ∧
      (s.store.request (Dir.user (Port.arrival .west))).isSome = true ∧ f.source ≠ s.image.address ∧
      ((s.peer f.source).state = .present ↔ w.peers.entries ≠ []) ∧ f.fold = 1 ∧ s.addressedHere f = true) := by
  refine ⟨?_, ?_, ?_⟩ <;> decide

theorem witness_PresenceConditionAndWeatherCopies :
    let part : PresencePart :=
      { roles := { signCount := 4 }, west := up.summary, east := up.summary, offHook := 4, occupancy := 96, alerts := 10 }
    (part.roles.signCount ≤ 4 ∧ part.offHook ≤ 4 ∧ part.occupancy ≤ 96 ∧ part.alerts ≤ 10) ∧
    ((readPresence (presencePayload part ⟨{}, {}, {}⟩)).isSome = true ∧ readPresence [] = none ∧
      (readCondition [3, 0x17, 8]).isSome = true ∧ readCondition [3, 12, 0] = none) ∧
    (signs.grants .receive = true ∧ (drained signs).grants .receive = false ∧ signs.image.roles.sign = .signs ∧
      signs.start ≠ .reReading ∧ (4 : Addr) ∈ signs.image.zoneStations ∧ (5 : Addr) ∉ signs.image.zoneStations) ∧
    (List.replicate 28 (0 : Byte)).length = 28 ∧ (List.replicate 27 (0 : Byte)).length ≠ 28 := by decide

def entry (a : Addr) (left : Nat) : HoldbackEntry :=
  { originator := a, quota := 2, expiry := { left := left }, armed := 0 }

theorem witness_HoldbackTimersAndCopies :
    (starving.start = .running ∧ starving.holdback.starvation.due = true ∧ starving.holdback.repeating.due = true ∧
      starving.holdback.period.due = true ∧ starving.grants .urgentOut = true) ∧
    ((drained starving).holdback.starvation.due = true ∧ (drained starving).grants .urgentOut = false) ∧
    (heldBack.start = .running ∧ ∃ e ∈ heldBack.holdback.entries, e.originator = 5 ∧ e.expiry.due = true) ∧
    ((∃ x ∈ heldBack.holdback.entries, x.originator = aFrame.source) ∧
      (∀ x ∈ bare.holdback.entries, x.originator ≠ aFrame.source) ∧ bare.holdback.entries.length < 4) ∧
    (let l := [entry 6 3, entry 7 4, entry 8 3, entry 9 5]
     (∀ x ∈ l, x.originator ≠ aFrame.source) ∧ 4 ≤ l.length ∧
      (∀ x ∈ l, (entry 6 3).expiry.left < x.expiry.left ∨
        ((entry 6 3).expiry.left = x.expiry.left ∧ (entry 6 3).armed ≤ x.armed))) := by decide

def aPresence : Held := { frame := { kind := .presence, source := 4, dest := 0 }, cell := 40, user := .ordinaryOut }

theorem witness_PresenceTimerAgesPeers :
    ((aging 1).start = .running ∧ (aging 1).peers.timer.due = true ∧
      (aging 1).queues.localClass2.any (fun h => h.frame.kind == .presence) = false ∧ (aging 1).grants .ordinaryOut = true ∧
      (drained (stuffed (aging 1))).grants .ordinaryOut = false) ∧
    (withQueues { localClass2 := [aPresence] } (aging 1)).queues.localClass2.any (fun h => h.frame.kind == .presence) = true ∧
    (let limit := max (aging 3).image.peerLossLimit 1
     let falls (p : Peer) : Bool := p.state == .present && decide (limit ≤ min (p.age + 1) 255)
     allStations.countP (fun a => falls ((aging 1).peer a)) = 0 ∧ allStations.countP (fun a => falls ((aging 3).peer a)) = 1) ∧
    (let s := withLine { state := .requesting } (aging 3)
     (s.line 1).state = .requesting ∧ { s with start := .reReading }.start = .reReading) ∧
    (let here (a : Addr) : Prop := a ≠ 0 ∧ ((aging 1).peer a).state = .present
     here 5 ∧ ¬ here 9 ∧ ¬ here 0) := by decide

/-! ### Telephone lines and the switchboard -/

def talkingLine : State := withLine { state := .talking, partner := some 9 } roadside
def talkingChannel : State :=
  withChannel { state := .talking, party := some party, arrival := some 3, voicing := true } board

theorem witness_MarkedFramesTakeSamples :
    (roadside.start = .running ∧ roadside.image.roles.phone ≠ .none ∧ roadside.phone.inStep = false ∧
      { roadside with start := .reReading }.start = .reReading) ∧
    ((inStep roadside).phone.inStep = true ∧ 15 ≠ 16) ∧
    (((octets 1).getD 1 {}).cmd = 1 ∧ ((octets 0).getD 1 {}).cmd = 0 ∧ ((octets 9).getD 1 {}).cmd ≠ 0 ∧
      ((octets 9).getD 1 {}).cmd ≠ 1) ∧
    ((inStep talkingLine).phone.inStep = true ∧ ((inStep talkingLine).line 1).state = .talking ∧
      ((inStep talkingLine).line 1).partner = some 9) ∧
    (board.start = .running ∧ board.image.roles.phone = .switchboard ∧ board.phone.inStep = false) ∧
    ((inStep talkingChannel).phone.inStep = true ∧ ((inStep talkingChannel).channel 0).state = .talking ∧
      ((inStep talkingChannel).channel 0).voicing = true ∧ ((inStep talkingChannel).channel 0).cleared = false) ∧
    ((withChannel { cleared := true } board).channel 0).cleared = true := by decide

/-- A VOICE frame for line 1 of this station, or from line 2 of station 6. -/
def aVoice (source : Addr) (line : Byte) : Frame :=
  { kind := .voice, source := source, dest := 4, tag := line, payload := List.replicate 32 0 }
def aSlot (st : SlotState) (ds : List Nat) : Slot :=
  { state := st, expected := 5, frames := ds.map (fun d => (d, [7])) }

theorem witness_VoiceSlots :
    (let f := aVoice 9 1
     talkingLine.image.address ≠ 0 ∧ f.tag = BitVec.ofNat 8 (1 : Fin 4).val ∧
      (f.group = false ∧ f.dest = talkingLine.image.address ∧ f.payload.length = 32) ∧
      (talkingLine.line 1).state = .talking ∧ (talkingLine.line 1).partner = some f.source ∧
      (roadside.line 1).state ≠ .talking ∧ 4 ≤ (aVoice 9 4).tag.toNat) ∧
    (let f := aVoice 6 2
     talkingChannel.switchboard.Sound ∧ f.tag = BitVec.ofNat 8 (2 : Fin 4).val ∧
      (talkingChannel.channel 0).state = .talking ∧ (talkingChannel.channel 0).party = some { station := f.source, line := 2 } ∧
      (∀ c, (board.channel c).state ≠ .talking)) ∧
    (∀ st ∈ [SlotState.empty, .filling, .playing], ∀ ds ∈ [[], [0], [7]], (aSlot st ds).Sound ∧ (aSlot st ds).state = st) ∧
    ((((12 : Word) - 5).toNat ≤ 7 ∧ 8 ≤ ((13 : Word) - 5).toNat ∧ ((32772 : Word) - 5).toNat ≤ 32767 ∧
      32768 ≤ ((32773 : Word) - 5).toNat) ∧ (7, [7]) ∈ (aSlot .playing [7]).frames ∧ (0, [7]) ∈ (aSlot .playing [0]).frames) := by
  decide

/-- A ROADSIDE station with a sign. -/
def watched : State := at_ { phone := .roadside, sign := .signs, signCount := 1 }

theorem witness_HighwayLossEndsCalls :
    (∀ s ∈ [inStep (withLine { state := .queued, partner := some 9 } roadside),
        inStep (withChannel { state := .offered, party := some party, arrival := some 3 } board), inStep bare],
      s.start = .running ∧ s.phone.loss.due = true ∧
        (∀ c, (s.channel c).state = .offered → (s.channel c).party ≠ none ∧ (s.channel c).arrival ≠ none) ∧
        s.switchboard.Sound) ∧
    (let s := inStep (withLine { state := .queued, partner := some 9 } watched)
     s.start = .running ∧ s.phone.loss.due = true ∧ s.switchboard.Sound ∧ s.image.roles.sign = .signs ∧ s.offHookCount ≠ 0 ∧
      after .highwayLossTimerExpiry s (·.offHookCount) = some 0) ∧
    (inStep roadside).image.roles.phone = .roadside ∧ (inStep board).image.roles.phone = .switchboard ∧
    ¬ bare.image.roles.phone = .roadside ∧ ¬ bare.image.roles.phone = .switchboard := by
  refine ⟨?_, ?_, ?_⟩ <;> decide

theorem witness_LinesRequestCalls :
    let check := withLine { state := .hookCheck, offRun := 5 } roadside
    let asking := withLine { state := .requesting, retry := fired } roadside
    (check.start = .running ∧ check.image.roles.phone = .roadside ∧ (check.line 1).state = .hookCheck ∧
      5 ≤ (check.line 1).offRun) ∧
    ((asking.line 1).state = .requesting ∧ (asking.line 1).retry.due = true ∧ (0 : Fin 4) ≠ 1) ∧
    (let s := withLine { state := .hookCheck, offRun := 5 } watched
     s.image.roles.phone = .roadside ∧ s.image.roles.sign = .signs ∧ s.offHookCount = 0 ∧ s.signs.incident = .quiet ∧
      s.image.incidentDelay ≠ 0 ∧ s.image.incidentPattern ≠ 0 ∧
      after (.hookCheckPassed 1) s (·.offHookCount) = some 1) := by decide

/-- R119, R180: the first line past hook check begins the incident delay, and ends a clear delay. -/
theorem test_incident_rises :
    let check := withLine { state := .hookCheck, offRun := 5 } watched
    after (.hookCheckPassed 1) check (fun t => (t.signs.incident, t.signs.incidentTimer.left)) =
      some (.rising, check.image.incidentDelay) ∧
    after (.hookCheckPassed 1) { check with signs := { incident := .falling, incidentTimer := fired } } (fun t =>
      (t.signs.incident, t.signs.incidentTimer)) = some (.active, Timer.stopped) := by decide

def calling (st : LineState) (repeats : Nat) : State :=
  let s := withLine
    { state := st, partner := some 9, offRun := 5, onRun := 25, supervision := fired, clearing := fired, ring := fired
      repeats := repeats } roadside
  { s with peers := { s.peers with entries := [(9, { state := .present })] } }

/-- The last call of a station with signs ends, and its off-hook count falls to 0. -/
theorem witness_LineCallsEnd :
    (∀ st ∈ [LineState.requesting, .queued, .alerting, .talking, .clearing, .ended, .ringing], ∀ n ∈ [0, 2, 3],
      let s := calling st n
      s.start = .running ∧ s.image.roles.phone = .roadside ∧ (s.line 1).state = st ∧ 25 ≤ (s.line 1).onRun ∧
        5 ≤ (s.line 1).offRun ∧ (s.line 1).ring.due = true ∧ (s.line 1).clearing.due = true ∧
        (s.line 1).supervision.due = true ∧ (s.line 1).repeats = n) ∧
    (∀ st ∈ [IncidentState.rising, .active],
      let s := withLine { state := .requesting, onRun := 25 } watched
      let s := { s with signs := { s.signs with incident := st } }
      s.image.roles.sign = .signs ∧ s.offHookCount ≠ 0 ∧ after (.hangUp 1) s (·.offHookCount) = some 0) := by decide

/-- A CALL frame to this station from station 9, or from the party of a channel. -/
def aMessage (source : Addr) (line code arg : Byte) : Frame :=
  { kind := .call, source := source, dest := 4, tag := line, payload := [code, arg] }

def aSetup : Held :=
  { frame := { kind := .call, source := 4, dest := 9, tag := 1, payload := [1, 0] }, cell := 18, user := .urgentOut }

theorem witness_LineTakesCalls :
    (roadside.image.address ≠ 0 ∧ roadside.image.roles.phone = .roadside) ∧
    (∀ m ∈ [(CallMessage.accept, 15), (.queued, 1), (.queued, 32), (.connect, 0), (.release, 0), (.released, 0), (.ring, 0)],
      let f := aMessage 9 1 (BitVec.ofNat 8 m.1.code) (BitVec.ofNat 8 m.2)
      f.group = false ∧ f.dest = roadside.image.address ∧ f.tag = BitVec.ofNat 8 (1 : Fin 4).val ∧
        ((byteAt f.payload 0).toNat, (byteAt f.payload 1).toNat) = (m.1.code, m.2) ∧ f.payload.length = 2) ∧
    (aMessage 9 4 2 0).tag ≠ BitVec.ofNat 8 (1 : Fin 4).val ∧
    (∀ st ∈ [LineState.idle, .hookCheck, .requesting, .queued, .alerting, .talking, .clearing, .ended, .ringing],
      ((calling st 0).line 1).state = st ∧ ((calling st 0).line 1).partner = some 9 ∧
        ((calling st 0).line 1).partner ≠ some 8) ∧
    ((inStep roadside).phone.inStep = true ∧ roadside.phone.inStep = false) ∧
    (∀ st ∈ [LineState.hookCheck, .requesting],
      let s := withQueues { localUrgent := [aSetup, aCall] } (calling st 0)
      s.image.roles.phone = .roadside ∧ (s.line 1).state = st ∧ aSetup ∈ s.queues.localUrgent ∧
        aSetup.frame.kind = .call ∧ aSetup.frame.tag = BitVec.ofNat 8 (1 : Fin 4).val ∧ byteAt aSetup.frame.payload 0 = 1 ∧
        aSetup.user = .urgentOut) ∧
    (let s := inStep watched
     s.image.roles.phone = .roadside ∧ s.image.roles.sign = .signs ∧ s.offHookCount = 0 ∧ (s.line 1).state = .idle ∧
      (s.lineCallCopy (aMessage 9 1 7 0)).2.offHookCount = 1) := by decide

/-- R116: a RING at a line that asks connects it, and its SETUP leaves the URGENT queue and frees its cell. -/
theorem test_ring_removes_setup :
    let t := ((withQueues { localUrgent := [aSetup, aCall] } (calling .requesting 0)).lineCallCopy (aMessage 9 1 7 0)).2
    (t.line 1).state = .talking ∧ t.queues.localUrgent.map (fun h => h.frame.payload) = [[], [10, 0]] ∧
      t.store.free.getLast? = some 18 := by decide

def channelAt (st : ChannelState) : State := withChannel { state := st, party := some party, arrival := some 3 } board
def queue32 : List Waiting :=
  (List.range 32).map (fun n => { party := { station := BitVec.ofNat 6 (n + 7), line := 0 }, arrival := BitVec.ofNat 16 n })

theorem witness_SwitchboardTakesCalls :
    (∀ st ∈ [ChannelState.offered, .talking, .callingBack, .clearing],
      (channelAt st).image.address ≠ 0 ∧ (channelAt st).switchboard.Sound ∧ party ∈ ((channelAt st).channel 0).held ∧
        ((channelAt st).channel 0).state = st) ∧
    (∀ m ∈ [CallMessage.setup, .release, .released, .ringAck, .lineBusy, .ringAnswered],
      let f := aMessage 6 2 (BitVec.ofNat 8 m.code) 0
      f.group = false ∧ f.dest = board.image.address ∧ f.tag = BitVec.ofNat 8 (2 : Fin 4).val ∧ f.payload.length = 2 ∧
        (byteAt f.payload 0).toNat = m.code) ∧
    (board.switchboard.Sound ∧ (∀ c, party ∉ (board.channel c).held) ∧ (∀ c, (board.channel c).state ≠ .free)) ∧
    (let free := withChannel { state := .free } board
     free.switchboard.Sound ∧ (free.channel 0).state = .free ∧ ∀ d : Fin 16, ¬ d.val < (0 : Fin 16).val) ∧
    (let s := withWaiting queue32 board
     s.switchboard.Sound ∧ s.switchboard.waiting.length = 32 ∧ (∀ w ∈ s.switchboard.waiting, w.party ≠ party)) ∧
    (let s := withWaiting [{ party := party, arrival := 3 }] board
     s.switchboard.Sound ∧ s.switchboard.waiting[0]? = some { party := party, arrival := 3 }) :=
  ⟨by decide, by decide, by decide, by decide, by decide, by decide⟩

def console (k : ConsoleCommand) (st : ChannelState) : State :=
  withChannel { takenCmd := some k, takenArg := 0x1A, state := st, party := some party, arrival := some 3 } board

theorem witness_ConsoleCommands :
    (∀ k ∈ [ConsoleCommand.openChannel, .closeChannel, .answer, .release, .callback],
      ∀ st ∈ [ChannelState.closed, .free, .offered, .talking, .callingBack, .clearing],
        let s := console k st
        s.start = .running ∧ s.image.roles.phone = .switchboard ∧ (s.channel 0).takenCmd = some k ∧
          (s.channel 0).state = st ∧ (s.channel 0).party = some party ∧ (s.channel 0).arrival = some 3 ∧
          s.switchboard.waiting = []) ∧
    (∀ d : Fin 16, ¬ d.val < (0 : Fin 16).val) ∧
    (let s := withWaiting [{ party := party, arrival := 3 }] (withChannel { takenCmd := some .openChannel } board)
     s.switchboard.waiting ≠ [] ∧ (s.channel 0).state = .closed ∧ ∀ d, (s.channel d).state ≠ .free) ∧
    ((∀ d, ((console .closeChannel .offered).channel d).state ≠ .free) ∧
      32 ≤ (withWaiting queue32 (console .closeChannel .offered)).switchboard.waiting.length) ∧
    (let s := { console .closeChannel .offered with switchboard := { channels :=
        [(0, { takenCmd := some .closeChannel, state := .offered, party := some party, arrival := some 3 }),
         (1, { state := .free })] } }
     (s.channel 1).state = .free ∧ (∀ d : Fin 16, d.val < (1 : Fin 16).val → (s.channel d).state ≠ .free) ∧
      (s.channel 0).state = .offered ∧ s.switchboard.waiting = []) ∧
    (let s := withChannel { takenCmd := some .callback, takenArg := 0x1A, state := .free } board
     (s.channel 0).takenArg = party.station ++ BitVec.ofNat 2 party.line.val ∧ party.station ≠ 0 ∧
      party.station ≠ s.image.address ∧ (∀ d, party ∉ (s.channel d).held) ∧ ∀ w ∈ s.switchboard.waiting, w.party ≠ party) ∧
    (let s := { board with switchboard := { channels :=
        [(0, { takenCmd := some .callback, takenArg := 0x1A, state := .free }),
         (1, { state := .offered, party := some party, arrival := some 3 })] } }
     s.switchboard.Sound ∧ (s.channel 0).takenCmd = some .callback ∧ party ∈ (s.channel 1).held ∧
      (s.channel 1).state = .offered) := by
  refine ⟨?_, ?_, ?_, ?_, ?_, ?_, ?_⟩ <;> decide

theorem witness_SwitchboardTimers :
    (∀ st ∈ [ChannelState.offered, .talking, .callingBack, .clearing], ∀ n ∈ [2, 3],
      let s := withChannel
        { state := st, party := some party, refresh := fired, supervision := fired, ring := fired, clearing := fired
          repeats := n } board
      s.start = .running ∧ s.image.roles.phone = .switchboard ∧ (s.channel 0).party = some party ∧
        (s.channel 0).state = st ∧ (s.channel 0).refresh.due = true ∧ (s.channel 0).supervision.due = true ∧
        (s.channel 0).ring.due = true ∧ (s.channel 0).clearing.due = true ∧ (s.channel 0).repeats = n ∧
        s.switchboard.waiting = []) ∧
    (let w : Waiting := { party := party, arrival := 3, refresh := fired }
     let s := withWaiting [w] board
     s.switchboard.waiting[0]? = some w ∧ (s.switchboard.waiting.map (·.party)).Nodup ∧ w.refresh.due = true) := by decide

/-! ### Maintenance, encodings and invariants -/

/-- The SERVICE link has received the start marker, kind, tag and length of a request. -/
def requesting (s : State) : State := { s with links := s.links.set .service { rx := .receiving .handed [0x31, 8, 4] } }

theorem witness_RequestsAndRemoteRequests :
    let busy := withJob .clearAlerts .taken bare
    let remote := withJob .clearAlerts (.remote 9 [9, 2, 0, 0]) bare
    (Hears .service (spelt 0x31 8 [0, 9, 0, 0]) (.message 0x31 8 [0, 9, 0, 0]) bare ∧
      Hears .service (spelt 0x31 8 [9, 2, 0, 0]) (.message 0x31 8 [9, 2, 0, 0]) bare ∧
      Hears .service ((spelt 0x31 8 [0, 2, 0, 0]).drop 4) (.message 0x31 8 [0, 2, 0, 0]) (requesting busy) ∧
      Hears .service ((spelt 0x31 8 [9, 2, 0, 0]).drop 4) (.message 0x31 8 [9, 2, 0, 0])
        (drained (stuffed (requesting bare)))) ∧
    (readRequest [0, 9, 0, 0] = none ∧ bare.grants .ordinaryOut = true ∧
      (drained (stuffed (requesting bare))).grants .ordinaryOut = false) ∧
    (readRequest [0, 2, 0, 0] = some (0, .clearAlerts) ∧ (requesting busy).maint.slot ≠ none ∧ bare.maint.slot = none ∧
      bare.maint.wait = none) ∧
    (readRequest [9, 2, 0, 0] = some (9, .clearAlerts) ∧ (9 : Addr) ≠ 0 ∧ (9 : Addr) ≠ bare.image.address) ∧
    (([63, 1, 1, 0] : List Byte).length = 4 ∧ (byteAt [63, 1, 1, 0] 0).toNat ≤ 63 ∧ 1 ≤ (byteAt [63, 1, 1, 0] 1).toNat ∧
      (wordAt [63, 1, 1, 0] 2).getLsbD 8 = true) ∧
    (remote.start = .running ∧ remote.grants .ordinaryOut = true ∧ (drained remote).grants .ordinaryOut = false ∧
      remote.maint.slot = some { command := .clearAlerts, requester := .serviceLink, tag := 8, stage := .remote 9 [9, 2, 0, 0] }) ∧
    (waiting.start = .running ∧ waiting.maint.wait = some { target := 9, tag := 3, timer := fired } ∧
      waiting.grants .ordinaryOut = true ∧ (drained waiting).grants .ordinaryOut = false) := by
  refine ⟨⟨hears_of ?_, hears_of ?_, hears_of ?_, hears_of ?_⟩, ?_⟩ <;> decide

theorem witness_StatusFrames :
    let request : Frame := { kind := .status, source := 7, dest := 4, tag := 5, payload := [1, 0, 2, 0, 0] }
    let reply : Frame := { kind := .status, source := 9, dest := 4, tag := 3, payload := [2, 9, 3, 0, 3, 0, 0, 0] }
    (bare.image.maintenance ≠ 0 ∧ request.source = bare.image.maintenance ∧ byteAt request.payload 0 = 1 ∧
      readRequest (request.payload.drop 1) = some (0, .clearAlerts) ∧ bare.maint.slot = none ∧
      (withJob .clearAlerts .taken bare).maint.slot ≠ none ∧ reply.source ≠ bare.image.maintenance) ∧
    (reply.payload ≠ [] ∧ byteAt reply.payload 0 = 2 ∧ byteAt [3, 9, 3, 1] 0 = 3 ∧ bare.maint.wait = none ∧
      waiting.maint.wait = some { target := 9, tag := 3, timer := fired } ∧ reply.tag = 3 ∧
      (byteAt reply.payload 4).getLsbD 1 = true ∧ waiting.grants .receive = true ∧
      (drained waiting).grants .receive = false) := by decide

theorem witness_MaintenanceJobs :
    (∀ c ∈ [JobCommand.read [3], .clearAlerts, .clearCounters], ∀ st ∈ [JobStage.taken, .reading 0, .answering .taken],
      let s := withJob c st bare
      s.start = .running ∧ s.maint.slot = some { command := c, requester := .serviceLink, tag := 8, stage := st } ∧
        s.store.free.length ≤ 256 ∧ s.grants .ordinaryOut = true ∧ (drained s).grants .ordinaryOut = false) ∧
    Table.wf Alert.ctorIdx {} latched.alerts = true ∧ bare.image.roles.toll = .none ∧ bare.image.roles.phone = .none ∧
      bare.image.roles.sign = .none ∧ bare.image.roles.weather = .none := by decide

theorem witness_HeaderEncoding :
    let f : Frame := { kind := .weather, source := 63, dest := 63, fold := 2, hops := 255, payload := List.replicate 232 0 }
    (f.source ≠ 0 ∧ f.fold ≤ 2 ∧ f.hops ≤ 255 ∧ f.payload.length ≤ 232) ∧ 0 < 72 ∧ 71 < 72 ∧ 0 ≠ 71 ∧ f.payload ≠ [] ∧
      bare.awake = true ∧ Pins.signal .west bare.pins = true ∧ (bare.port .west).rx = .hunting := by
  decide

theorem witness_StepsKeepTheCells : bare.store.SharesKept ∧ bare.CellsConserved ∧ ∃ t, step bare = .next t :=
  ⟨by decide,
   ⟨by decide, by decide,
    (by decide : List.range 256 = bare.store.free ++ allUsers.flatMap (fun u => bare.cellsOf u)) ▸ List.nodup_range,
    by decide, by decide, by decide, by decide⟩, _, rfl⟩

/-- Two calls wait, the older with the last arrival number before the counter returns to 0. -/
def wrapped : State :=
  { board with
    pending := [.resetRelease]
    switchboard := {
      waiting := [{ party := party, arrival := 0xFFFF }, { party := { party with line := 3 }, arrival := 2 }], arrival := 3 } }

theorem witness_StepsKeepTheSwitchboard :
    wrapped.switchboard.Sound ∧ wrapped.switchboard.InOrder 0xFFFE ∧
      ∃ t, step wrapped = .next t ∧ (t.switchboard.arrival - 0xFFFE).toNat ≤ 32767 :=
  ⟨by decide, by decide, _, rfl, by decide⟩

theorem witness_StepsKeepTheJournal :
    ReturnsBounded (inFlight .running).returns ∧ (inFlight .running).journal.Bounded ∧ (inFlight .running).AttemptsMatched ∧
      ∃ t, step (inFlight .running) = .next t := ⟨by decide, by decide, ⟨by decide, by decide, by decide, by decide, by decide, nofun⟩, _, rfl⟩

theorem witness_StepsKeepTheFolds :
    bare.west.Sound ∧ bare.east.Sound ∧ (withWest { rx := .body aFrame 0 false [] } bare).ReceiversSound ∧
      bare.ReceiversSound ∧ bare.FoldsQuiet ∧ ∃ t, step bare = .next t :=
  ⟨by decide, by decide, by decide, by decide, by decide, _, rfl⟩

theorem witness_StepsKeepTheTables :
    heldBack.holdback.Bounded heldBack.image.address ∧ weather.weather.LevelsSound ∧ bare.queues.OneAnnouncement ∧
      (∀ c, (roadside.voice c).slot.Sound) ∧ (bare.peer bare.image.address).state = .absent ∧ bare.TransparentQuiet ∧
      ∃ t, step bare = .next t :=
  ⟨by decide, by decide, by decide, fun _ => ⟨nofun, List.nodup_nil⟩, by decide, by decide, _, rfl⟩

end Sys2Proof.Tests
end

