-- ==== Sys2Proof/Proofs/Timers.lean ====
section
/-! PROOF. Timers counted over several pulses (R10). -/

namespace Sys2Proof.Machine

/-! ## Several pulses -/

@[simp] theorem Timer.pulses_zero (t : Timer) : t.pulses 0 = t := rfl

theorem Timer.pulses_succ (k : Nat) (t : Timer) : t.pulses (k + 1) = t.tick.pulses k := rfl

@[simp] theorem Timer.stopped_pulses (k : Nat) : Timer.stopped.pulses k = Timer.stopped := by
  induction k with
  | zero => rfl
  | succ k ih => rw [Timer.pulses_succ, Timer.stopped_tick, ih]

/-- While the count lasts, each pulse takes one from it and does nothing else. -/
theorem Timer.pulses_of_lt {k : Nat} {t : Timer} (h : k < t.left) : t.pulses k = { t with left := t.left - k } := by
  induction k generalizing t with
  | zero => rfl
  | succ k ih =>
    obtain ⟨h0, -⟩ | ⟨h1, -⟩ | ⟨-, htick⟩ := t.tick_cases
    · omega
    · omega
    · have hleft : k < t.tick.left := by rw [htick]; show k < t.left - 1; omega
      rw [Timer.pulses_succ, ih hleft, htick, Nat.sub_sub, Nat.add_comm 1 k]

/-- The pulse that ends the count makes the expiry due, and the timer goes on from its reload count. -/
theorem Timer.pulses_left {t : Timer} (h : 0 < t.left) : t.pulses t.left = { t with left := t.reload, due := true } := by
  obtain ⟨left, reload, due⟩ := t
  induction left with
  | zero => exact absurd h (Nat.lt_irrefl 0)
  | succ n ih =>
    rw [Timer.pulses_succ]
    obtain ⟨h0, -⟩ | ⟨h1, htick⟩ | ⟨h2, htick⟩ := Timer.tick_cases ⟨n + 1, reload, due⟩
    · cases h0
    · obtain rfl : n = 0 := Nat.succ.inj h1
      exact htick
    · rw [htick]
      exact ih (Nat.lt_of_succ_lt_succ h2)

/-! ## Up to the end of the count -/

theorem Timer.pulses_expired_of_lt {k : Nat} {t : Timer} (h : k < t.left) : (t.pulses k).expired = t.expired := by
  rw [Timer.pulses_of_lt h]
  rfl

theorem Timer.pulses_left_expired {t : Timer} (h : 0 < t.left) : (t.pulses t.left).expired = true := by
  rw [Timer.pulses_left h]
  rfl

/-- Once its expiry has been taken, a timer that has counted to its end is as it was but for its count, which is its reload
count: 0, so stopped, or the full count of one that repeats. -/
theorem Timer.pulses_left_take {t : Timer} (h : 0 < t.left) :
    (t.pulses t.left).take = { t with left := t.reload, due := false } := by
  rw [Timer.pulses_left h]
  rfl

end Sys2Proof.Machine

open Sys2Proof.Machine

/-- Settles O10: an armed timer, repeating or not, has `max c 1` pulses left, so it is not due before the count's end, and
at that end the reload count says whether it has stopped or started again. -/
theorem timersExpireAtTheirCount : Obligations.TimersExpireAtTheirCount := by
  intro c k
  have harmed : 0 < (Timer.arm c).left := Nat.le_max_right c 1
  have hrepeating : 0 < (Timer.armRepeating c).left := Nat.le_max_right c 1
  refine ⟨fun h => ⟨?before, ?beforeRepeating⟩, ?due, ?taken, ?dueRepeating, ?takenRepeating, ?stopped⟩
  case before => exact Timer.pulses_expired_of_lt (t := .arm c) h
  case beforeRepeating => exact Timer.pulses_expired_of_lt (t := .armRepeating c) h
  case due => exact Timer.pulses_left_expired harmed
  case taken => exact Timer.pulses_left_take harmed
  case dueRepeating => exact Timer.pulses_left_expired hrepeating
  case takenRepeating => exact Timer.pulses_left_take hrepeating
  case stopped => rw [Timer.stopped_pulses]; rfl

end

