-- ==== Sys2Proof/Proofs/SpanWords.lean ====
section
/-! PROOF. What a valid span word does to the link state of its port (R25, R36, R38 to R40). -/

namespace Sys2Proof.Machine

/-! ## A change of one port's record, with what it counts -/

/-- From `s` to `t` the record of port `p` becomes `r` and each of the given counters counts one event; nothing else
changes. -/
structure PortBecomes (p : Port) (r : PortRec) (cs : List Counter) (s t : State) : Prop where
  counts : Counts cs s t
  frame : t = { s.modPort p (fun _ => r) with counters := t.counters }

section

variable {p : Port} {r : PortRec} {cs : List Counter} {s t : State}

theorem PortBecomes.refl (p : Port) (s : State) : PortBecomes p (s.port p) [] s s :=
  ⟨Counts.refl s, by rw [State.modPort_same (f := fun _ => s.port p) rfl]⟩

theorem PortBecomes.congr {r' : PortRec} (h : PortBecomes p r cs s t) (hr : r = r') : PortBecomes p r' cs s t := hr ▸ h

theorem PortBecomes.modPort (h : PortBecomes p r cs s t) (f : PortRec → PortRec) :
    PortBecomes p (f r) cs s (t.modPort p f) := by
  refine ⟨h.counts.of_eq rfl (State.modPort_counters p f t), ?_⟩
  rw [h.frame]
  cases p <;> rfl

theorem PortBecomes.portCount (h : PortBecomes p r cs s t) {c : PortCounter} (hc : Counter.port p c ∉ cs) :
    PortBecomes p r (cs ++ [.port p c]) s (t.portCount p c) := by
  refine ⟨h.counts.trans (State.count_counts _ t) fun k hk hkc => hc (List.mem_singleton.mp hkc ▸ hk), ?_⟩
  rw [h.frame]
  rfl

theorem PortBecomes.port_eq (h : PortBecomes p r cs s t) : t.port p = r := by
  rw [h.frame]
  cases p <;> rfl

theorem PortBecomes.start_eq (h : PortBecomes p r cs s t) : t.start = s.start := by
  rw [h.frame]
  exact State.modPort_start p _ s

theorem PortBecomes.image_eq (h : PortBecomes p r cs s t) : t.image = s.image := by
  rw [h.frame]
  exact State.modPort_image p _ s

theorem PortBecomes.queues_eq (h : PortBecomes p r cs s t) : t.queues = s.queues := by
  rw [h.frame]
  exact State.modPort_queues p _ s

/-- A report adds its occurrence to what is counted, and the latches to what changes. -/
theorem PortBecomes.report_counts (h : PortBecomes p r cs s t) {a : Alert} (ha : Counter.occurrence a ∉ cs) :
    Counts (cs ++ [.occurrence a]) s (t.report a) :=
  h.counts.trans (State.report_counts a t) fun _ hk hka => ha (List.mem_singleton.mp hka ▸ hk)

theorem PortBecomes.report_frame (h : PortBecomes p r cs s t) (a : Alert) :
    t.report a =
      { s.modPort p (fun _ => r) with counters := (t.report a).counters, alerts := (t.report a).alerts } := by
  rw [State.report_eq, h.frame]

/-- What is to leave by a side does not change with a record that keeps what the port transmits. -/
theorem PortBecomes.nothingLeaves (h : PortBecomes p r cs s t) (htx : r.tx = (s.port p).tx) (hn : s.NothingLeaves p) :
    t.NothingLeaves p := by
  unfold State.NothingLeaves
  rwa [h.queues_eq, h.port_eq, htx]

end

/-! ## Folds with no frame to leave (R46, R47) -/

theorem Queues.clearTransit_of_empty {d : Dir} {q : Queues} (h : q.transit d = []) : q.clearTransit d = q := by
  obtain ⟨_, _, _, _⟩ := q
  cases d <;>
  · obtain ⟨rfl, rfl⟩ := List.append_eq_nil_iff.mp h
    rfl

/-- A change that leaves the queues as they are changes nothing. -/
theorem State.modQueues_same {f : Queues → Queues} {s : State} (h : f s.queues = s.queues) : s.modQueues f = s := by
  unfold State.modQueues
  rw [h, Holdback.notice_same _ _ rfl rfl]

/-- The onset of a fold at a side with no frame to leave is its report alone. -/
theorem State.foldOnset_of_nothingLeaves {p : Port} {s : State} (h : s.NothingLeaves p) :
    s.foldOnset p = s.report .foldChange := by
  obtain ⟨htransit, hwire⟩ := h
  have hport : (s.report .foldChange).port p = s.port p := by cases p <;> rfl
  have htx : ∀ k, ((s.report .foldChange).port p).tx ≠ .frame k := by
    intro k hk
    rw [hport] at hk
    rw [hk] at hwire
    cases hwire
  have hqueues : (s.report .foldChange).queues.transit (Port.departure p) = [] := htransit
  unfold State.foldOnset
  dsimp only
  rw [State.abandonFrame_none htx, hqueues, State.modQueues_same (Queues.clearTransit_of_empty hqueues)]
  rfl

/-! ## Link states -/

/-- The link record of a port whose link state has become DOWN. -/
def PortRec.fallen (cause : FoldCause) (r : PortRec) : PortRec :=
  { r with link := .down, cause := cause, neighbour := 0, holdOff := Timer.stopped }

theorem State.linkDown_of_not_up {p : Port} {s : State} (cause : FoldCause) (h : (s.port p).link ≠ .up) :
    s.linkDown p cause = s.modPort p (PortRec.fallen cause) := by
  unfold State.linkDown State.linkFalls
  dsimp only
  rw [if_neg (by simpa using h)]
  rfl

/-- A link that leaves UP is counted, and its side folds. -/
theorem State.linkDown_of_up {p : Port} {s : State} (cause : FoldCause) (h : (s.port p).link = .up)
    (hn : s.NothingLeaves p) :
    s.linkDown p cause = ((s.modPort p (PortRec.fallen cause)).portCount p .linkDowns).report .foldChange := by
  have hn' : ((s.modPort p (PortRec.fallen cause)).portCount p .linkDowns).NothingLeaves p := by
    cases p <;> exact hn
  rw [← State.foldOnset_of_nothingLeaves hn']
  unfold State.linkDown State.linkFalls
  dsimp only
  rw [if_pos (by simpa using h)]
  rfl

section

variable {p : Port} {r : PortRec} {cs : List Counter} {s t : State}

theorem PortBecomes.linkDown (h : PortBecomes p r cs s t) (hl : r.link ≠ .up) (cause : FoldCause) :
    PortBecomes p (r.fallen cause) cs s (t.linkDown p cause) := by
  rw [State.linkDown_of_not_up cause (by rwa [h.port_eq])]
  exact h.modPort (PortRec.fallen cause)

theorem PortBecomes.linkUp (h : PortBecomes p r cs s t) (hc : Counter.port p .joins ∉ cs) :
    PortBecomes p { r with link := .up, lineWait := none } (cs ++ [.port p .joins]) s (t.linkUp p) :=
  (h.modPort (fun r => { r with link := .up, lineWait := none })).portCount hc

/-- A fold with no frame to leave: besides the record and the two counts, the latches alone change. -/
theorem PortBecomes.folds (h : PortBecomes p r cs s t) (hl : r.link = .up) (htx : r.tx = (s.port p).tx)
    (hn : s.NothingLeaves p) (hc : Counter.port p .linkDowns ∉ cs) (ha : Counter.occurrence .foldChange ∉ cs)
    (cause : FoldCause) :
    ((t.linkDown p cause).alert .foldChange).latched = true ∧
      Counts (cs ++ [.port p .linkDowns] ++ [.occurrence .foldChange]) s (t.linkDown p cause) ∧
      t.linkDown p cause = { s.modPort p (fun _ => r.fallen cause) with
        counters := (t.linkDown p cause).counters, alerts := (t.linkDown p cause).alerts } := by
  have hdown := (h.modPort (PortRec.fallen cause)).portCount hc
  rw [State.linkDown_of_up cause (by rwa [h.port_eq]) (h.nothingLeaves htx hn)]
  exact ⟨State.report_latched _ _, hdown.report_counts (by simp [ha]), hdown.report_frame .foldChange⟩

end

/-! ## The rule of each link state (R39, R40) -/

section

variable {p : Port} {s : State} (st : SpanState) (fault : Bool)

theorem State.spanTaken_down (h : (s.port p).link = .down) :
    s.spanTaken p st fault = if fault then s else s.modPort p (PortRec.settle s.image.joinHoldOff) := by
  unfold State.spanTaken
  rw [h]
  cases fault <;> rfl

theorem State.spanTaken_settling (h : (s.port p).link = .settling) :
    s.spanTaken p st fault = if fault then s.linkDown p .farEndFault else s := by
  unfold State.spanTaken
  rw [h]
  cases fault <;> rfl

theorem State.spanTaken_joining (h : (s.port p).link = .joining) :
    s.spanTaken p st fault =
      if fault then s.linkDown p .farEndFault else if st = .notReady then s else s.linkUp p := by
  unfold State.spanTaken
  rw [h]
  cases fault <;> cases st <;> rfl

theorem State.spanTaken_up (h : (s.port p).link = .up) :
    s.spanTaken p st fault =
      if fault then s.linkDown p .farEndFault else if st = .notReady then s.linkDown p .neighbourNotReady else s := by
  unfold State.spanTaken
  rw [h]
  cases fault <;> cases st <;> rfl

theorem State.spanTaken_isolated (h : (s.port p).link = .isolated) : s.spanTaken p st fault = s := by
  unfold State.spanTaken
  rw [h]

end

/-! ## Hearing (R25, R36, R38, R45) -/

theorem PortRec.hear_of_not_isolated {r : PortRec} (lossLimit recovery : Nat) (h : r.link ≠ .isolated) :
    r.hear lossLimit recovery = { r with loss := Timer.arm lossLimit, hearing := true } := by
  simp [PortRec.hear, h]

theorem PortRec.hear_of_isolated {r : PortRec} (lossLimit recovery : Nat) (h : r.link = .isolated) :
    r.hear lossLimit recovery =
      { r with
        loss := Timer.arm lossLimit, hearing := true
        recovery := if r.hearing then r.recovery else Timer.arm recovery } := by
  cases hh : r.hearing <;> simp [PortRec.hear, h, hh]

/-- The row's answer is the effect of the span word that its symbols bring, on the state that the reception leaves. -/
theorem exec_spanWordReceived {was s : State} {p : Port} {content : List RxSymbol} {check : Byte} {sender : Addr}
    {st : SpanState} {fault : Bool}
    (h : was.received p (spanSymbols content check) = some (.spanWord sender st fault, s)) :
    exec (.spanWordReceived p content check) was = .next (s.spanValid p sender st fault) := by
  show execSpanWordReceived p content check was = _
  unfold execSpanWordReceived whenBrought
  rw [h]

section

variable (p : Port) (sender : Addr) (st : SpanState) (fault : Bool) {s : State}

/-- Every valid span word is counted and sets the neighbour address. -/
theorem PortBecomes.spanWord (s : State) :
    PortBecomes p { s.port p with neighbour := sender } [.port p .spanWordsIn] s
      ((s.modPort p (fun r => { r with neighbour := sender })).portCount p .spanWordsIn) :=
  ((PortBecomes.refl p s).modPort (fun r => { r with neighbour := sender })).portCount List.not_mem_nil

theorem State.spanValid_selfHeard (hs : s.start ≠ .transparent) (ha : sender = s.image.address) :
    PortBecomes p { s.port p with neighbour := sender } [.port p .spanWordsIn, .port p .selfHeard] s
      (s.spanValid p sender st fault) := by
  have hword := PortBecomes.spanWord p sender s
  unfold State.spanValid
  dsimp only
  rw [hword.start_eq, hword.image_eq, if_pos ⟨hs, ha⟩]
  exact hword.portCount (by simp)

/-- A span word that is not self-heard is heard, and the link state's rule follows. -/
theorem State.spanValid_heard (h : s.start = .transparent ∨ sender ≠ s.image.address) :
    ∃ u, s.spanValid p sender st fault = u.spanTaken p st fault ∧
      PortBecomes p (PortRec.hear s.image.lossLimit s.image.recovery { s.port p with neighbour := sender })
        [.port p .spanWordsIn] s u := by
  have hword := PortBecomes.spanWord p sender s
  refine ⟨_, ?_, hword.modPort (PortRec.hear s.image.lossLimit s.image.recovery)⟩
  unfold State.spanValid
  dsimp only
  rw [hword.start_eq, hword.image_eq, if_neg (fun ⟨hs, ha⟩ => h.elim hs (fun hne => hne ha))]

end

end Sys2Proof.Machine

open Sys2Proof.Machine

/-- Settles O33: the span word leaves a state `u` in which nothing but its port's record and SPAN_WORDS_IN have changed, and
the rule of the link state is applied to `u`. -/
theorem spanWordRules : Obligations.SpanWordRules := by
  intro was s p content check sender st fault hreceived r heard down becomes folds
  have hexec := exec_spanWordReceived hreceived
  have becomes_of : ∀ {r' cs}, PortBecomes p r' ((PortCounter.spanWordsIn :: cs).map (Counter.port p)) s
      (s.spanValid p sender st fault) → becomes r' cs := fun h => ⟨_, hexec, h.counts, h.frame⟩
  refine ⟨fun hs ha => becomes_of (State.spanValid_selfHeard p sender st fault hs ha), fun hother => ?_⟩
  obtain ⟨u, htaken, hu⟩ := State.spanValid_heard p sender st fault hother
  rw [htaken] at becomes_of hexec
  have hlink : (u.port p).link = r.link := by rw [hu.port_eq]; rfl
  have hheard : r.link ≠ .isolated → PortBecomes p heard [.port p .spanWordsIn] s u := fun hl =>
    hu.congr (PortRec.hear_of_not_isolated _ _ hl)
  have folds_of : ∀ cause, r.link = .up → s.NothingLeaves p → u.spanTaken p st fault = u.linkDown p cause →
      folds cause := fun cause hl hn hrule =>
    ⟨_, hexec.trans (congrArg _ hrule), (hheard (by simp [hl])).folds hl rfl hn (by simp) (by simp) cause⟩
  refine ⟨?downFault, ?down, ?settlingFault, ?settling, ?joiningFault, ?joiningNotReady, ?joining, ?up, ?upFault,
    ?upNotReady, ?isolated⟩
  case downFault =>
    intro hl hf
    rw [State.spanTaken_down _ _ (hlink.trans hl), if_pos hf] at becomes_of
    exact becomes_of (hheard (by simp [hl]))
  case down =>
    intro hl hf
    rw [State.spanTaken_down _ _ (hlink.trans hl), if_neg (by simp [hf]), hu.image_eq] at becomes_of
    exact ⟨becomes_of ((hheard (by simp [hl])).modPort (PortRec.settle s.image.joinHoldOff)), rfl⟩
  case settlingFault =>
    intro hl hf
    rw [State.spanTaken_settling _ _ (hlink.trans hl), if_pos hf] at becomes_of
    exact becomes_of ((hheard (by simp [hl])).linkDown (by simp [heard, hl]) .farEndFault)
  case settling =>
    intro hl hf
    rw [State.spanTaken_settling _ _ (hlink.trans hl), if_neg (by simp [hf])] at becomes_of
    exact becomes_of (hheard (by simp [hl]))
  case joiningFault =>
    intro hl hf
    rw [State.spanTaken_joining _ _ (hlink.trans hl), if_pos hf] at becomes_of
    exact becomes_of ((hheard (by simp [hl])).linkDown (by simp [heard, hl]) .farEndFault)
  case joiningNotReady =>
    intro hl hf hst
    rw [State.spanTaken_joining _ _ (hlink.trans hl), if_neg (by simp [hf]), if_pos hst] at becomes_of
    exact becomes_of (hheard (by simp [hl]))
  case joining =>
    intro hl hf hst
    rw [State.spanTaken_joining _ _ (hlink.trans hl), if_neg (by simp [hf]), if_neg hst] at becomes_of
    exact becomes_of ((hheard (by simp [hl])).linkUp (by simp))
  case up =>
    intro hl hf hst
    rw [State.spanTaken_up _ _ (hlink.trans hl), if_neg (by simp [hf]), if_neg hst] at becomes_of
    exact becomes_of (hheard (by simp [hl]))
  case upFault =>
    intro hl hf hn
    exact folds_of _ hl hn (by rw [State.spanTaken_up _ _ (hlink.trans hl), if_pos hf])
  case upNotReady =>
    intro hl hf hst hn
    exact folds_of _ hl hn (by rw [State.spanTaken_up _ _ (hlink.trans hl), if_neg (by simp [hf]), if_pos hst])
  case isolated =>
    intro hl
    rw [State.spanTaken_isolated _ _ (hlink.trans hl)] at becomes_of
    exact becomes_of (hu.congr (PortRec.hear_of_isolated _ _ hl))

end

section
/-! PROOF. The intake of a quantity and its smoothed value (R164, R165). -/

namespace Sys2Proof.Machine

/-! ## Intake of a missing field (R164) -/

section

variable {limit : Nat} {r : QuantityRec}

theorem QuantityRec.missed_of_not_live (h : r.live = false) :
    r.missed limit = { after := { r with missing := min (r.missing + 1) 255 } } := by
  simp [QuantityRec.missed, h]

theorem QuantityRec.missed_of_lt (h : min (r.missing + 1) 255 < max limit 1) :
    r.missed limit = { after := { r with missing := min (r.missing + 1) 255 } } := by
  simp only [QuantityRec.missed, decide_eq_false (Nat.not_le.mpr h), Bool.and_false, Bool.false_eq_true, if_false]

theorem QuantityRec.missed_of_le (hl : r.live = true) (h : max limit 1 ≤ min (r.missing + 1) 255) :
    r.missed limit = { after := { r with missing := min (r.missing + 1) 255, live := false }, staled := true } := by
  simp only [QuantityRec.missed, hl, decide_eq_true h, Bool.and_self, if_true]

end

/-! ## Intake of a present field (R164) -/

@[simp] theorem withinStep_none (x : Int) (a : Option Int) : withinStep none x a = true := rfl

@[simp] theorem withinStep_some (l : Nat) (x a : Int) : withinStep (some l) x (some a) = decide ((x - a).natAbs ≤ l) := rfl

section

variable {step : Option Nat} {k : Nat} {x : Int} {r : QuantityRec}

theorem QuantityRec.met_of_not_live (h : r.live = false) :
    r.met step k x = { after := r.restarted x, accepted := true } := by
  simp [QuantityRec.met, h]

theorem QuantityRec.met_of_within (hl : r.live = true) (h : withinStep step x r.accepted = true) :
    r.met step k x =
      { after := { live := true, accepted := some x, smoothed := smooth k x r.smoothed, missing := 0, suspect := 0 }
        accepted := true } := by
  simp [QuantityRec.met, hl, h]

theorem QuantityRec.met_of_beyond (hl : r.live = true) (h : withinStep step x r.accepted = false) :
    r.met step k x =
      if r.suspect < 2 then { after := { r with suspect := r.suspect + 1 }, suspect := true }
      else { after := r.restarted x, accepted := true, suspect := true } := by
  simp [QuantityRec.met, hl, h]

end

/-! ## Smoothing (R165) -/

@[simp] theorem smooth_zero (x S : Int) : smooth 0 x S = x * 256 := rfl

theorem smooth_of_pos {k : Nat} (h : 1 ≤ k) (x S : Int) :
    smooth k x S = S + (x * 256 - S + 2 ^ (k - 1)) / 2 ^ k :=
  if_neg (Nat.ne_of_gt h)

/-- `d` divided by an even number and rounded to the nearest integer lies between 0 and `d`. -/
theorem roundedQuotient_between {m : Int} (hm : 0 < m) (d : Int) :
    min 0 d ≤ (d + m) / (2 * m) ∧ (d + m) / (2 * m) ≤ max 0 d := by
  have h2m : 0 < 2 * m := by omega
  have hsplit : d * (2 * m) = 2 * (d * (m - 1) + d) := by
    rw [Int.mul_sub, Int.mul_one, Int.sub_add_cancel, Int.mul_left_comm]
  rw [Int.le_ediv_iff_mul_le h2m, ← Int.lt_add_one_iff (b := max 0 d), Int.ediv_lt_iff_lt_mul h2m, Int.add_mul]
  obtain hd | hd := Int.le_total 0 d
  · have hrest : 0 ≤ d * (m - 1) := Int.mul_nonneg hd (by omega)
    rw [Int.min_eq_left hd, Int.max_eq_right hd]
    omega
  · have hrest : d * (m - 1) ≤ 0 := Int.mul_nonpos_of_nonpos_of_nonneg hd (by omega)
    rw [Int.min_eq_right hd, Int.max_eq_left hd]
    omega

/-- Smoothing moves the value towards the accepted sample and never past it. -/
theorem smooth_between (k : Nat) (x S : Int) : min S (x * 256) ≤ smooth k x S ∧ smooth k x S ≤ max S (x * 256) := by
  cases k with
  | zero => exact ⟨Int.min_le_right .., Int.le_max_right ..⟩
  | succ n =>
    have hmove := roundedQuotient_between (m := 2 ^ n) (Int.pow_pos (by decide)) (x * 256 - S)
    rw [smooth_of_pos (Nat.le_add_left 1 n), Nat.add_sub_cancel, Int.pow_succ']
    omega

end Sys2Proof.Machine

open Sys2Proof.Machine

/-- Settles O14: each row of R164 is one equation of the intake, and the step of R165 is the distance to the sample divided
by a power of 2 and rounded, so it ends between the old value and the sample. -/
theorem intakeAndSmoothing : Obligations.IntakeAndSmoothing := by
  refine ⟨⟨?missing, ?stale, ?noLimit, ?limits, ?within, ?beyond⟩, ?smoothing⟩
  case missing =>
    intro limit r run
    refine ⟨fun _ hlt => ?_, fun hl hle => ?_, fun hl => ?_⟩
    · rw [QuantityRec.missed_of_lt hlt]; exact ⟨rfl, rfl⟩
    · rw [QuantityRec.missed_of_le hl hle]; exact ⟨rfl, rfl⟩
    · rw [QuantityRec.missed_of_not_live hl]; exact ⟨rfl, rfl⟩
  case stale =>
    intro step k x r hl
    rw [QuantityRec.met_of_not_live hl]
    exact ⟨rfl, rfl⟩
  case noLimit =>
    intro k x r hl
    rw [QuantityRec.met_of_within hl (withinStep_none x _)]
    exact ⟨rfl, rfl⟩
  case limits => exact fun i => ⟨rfl, rfl, rfl, rfl, rfl⟩
  case within =>
    intro step k x a r hl ha hnear
    rw [QuantityRec.met_of_within hl (by simp [ha, hnear])]
    exact ⟨rfl, rfl⟩
  case beyond =>
    intro step k x a r hl ha hfar
    rw [QuantityRec.met_of_beyond hl (by simp [ha, hfar])]
    obtain hfew | hmany := Nat.lt_or_ge r.suspect 2
    · rw [if_pos hfew]
      exact ⟨rfl, fun _ => rfl, fun hmany => absurd hfew (Nat.not_lt.mpr hmany)⟩
    · rw [if_neg (Nat.not_lt.mpr hmany)]
      exact ⟨rfl, fun hfew => absurd hfew (Nat.not_lt.mpr hmany), fun _ => rfl⟩
  case smoothing =>
    intro k x S
    obtain ⟨hlow, hhigh⟩ := smooth_between k x S
    refine ⟨fun hk => by rw [hk, smooth_zero], fun hk => smooth_of_pos hk x S, hlow, hhigh, fun hx hS => ?_⟩
    omega

end
